-- ==== Sys2Proof/Word.lean ====
section
/-! DEFINITION. The bit-vector types of the block (R15: every value is unsigned, bit 0 is the least significant). -/

namespace Sys2Proof

/-- One command word of the command port, 128 bits (R75). -/
abbrev CommandWord := BitVec 128

/-- A 64-bit value: a segment entry (R26), the data operand D (R75), a response word (R82). -/
abbrev Word64 := BitVec 64

/-- A chip output word, 20 bits (R37, R71). -/
abbrev ChipWord := BitVec 20

/-- The combined word, grid-select field below the segment field, 40 bits (R70). -/
abbrev CombinedWord := BitVec 40

/-- One byte on the serial wire (R73). -/
abbrev WireByte := BitVec 8

end Sys2Proof
end

