-- ==== Sys2Proof/Config.lean ====
section
/-! DEFINITION. The configuration and the parameters of the block (R9 to R14, R20), and the values the spec leaves open. -/

namespace Sys2Proof

/-- One event on the block's pins (R33). A level is `true` for 1 and `false` for 0. -/
inductive PinEvent where
  /-- `LoadSet(v)`: the LOAD line is driven to level v. -/
  | loadSet (v : Bool)
  /-- `ShiftByte(b)`: the transport shifts byte b out, most significant bit first (R74). -/
  | shiftByte (b : WireByte)
deriving DecidableEq, Repr

/-- The external font (R165) as a table of the characters that have a pattern, each under its upper-case form.
Characters are finitely many, so a table loses no font (log 11). -/
abbrev FontTable := List (Char × Word64)

/-- The parameters fixed at construction (R14) and the Display Configuration (R20), "immutable after construction".
The derived constants of R22 to R24 are functions of it (`Machine/Layout.lean`). -/
structure Config where
  /-- G, the grid count (R9). -/
  grids : Nat
  /-- S, the segment count (R10). -/
  segments : Nat
  /-- NCHIP, the number of driver chips (R11). -/
  chips : Nat
  /-- MAX_BRIGHTNESS (R14), OPEN. -/
  maxBrightness : Nat
  /-- BRIGHTNESS_INIT (R14, R31), OPEN. -/
  brightnessInit : Nat
  /-- CLK_REQ, the requested serial clock rate (R14, R147), OPEN. -/
  clkReq : Nat
  /-- CLK_MAX, the hardware maximum of the serial clock rate (R14, R147), OPEN. -/
  clkMax : Nat
  /-- TW, the width in bits of the caller's free-running timer (R13). -/
  timerWidth : Nat
  /-- CURSOR_INIT (R14, R28). -/
  cursorInit : Nat
  /-- LAST_TS_INIT (R14, R29). -/
  lastTsInit : Nat
  /-- LOAD_INIT (R14, R34). -/
  loadInit : Bool
  /-- BLANK_INIT (R14, R35), OPEN. -/
  blankInit : Bool
  /-- TRANSPORT_PRESENT (R14, R144). -/
  transportPresent : Bool
  /-- FONT and HAS_PATTERN (R14, R165), OPEN. -/
  font : FontTable
  /-- SPI_MODE (R14, R74), OPEN: an uninterpreted code, read by no rule (log 12). -/
  spiMode : Nat
deriving DecidableEq, Repr

/-- The specialised variant of R8 (G = 7, S = 21, NCHIP = 2) with every default of R13 and R14.
DESIGN CHOICE (log 2): the parameters the spec leaves OPEN are 0, false or empty here, and the transport is present. -/
def Config.specialised : Config where
  grids := 7
  segments := 21
  chips := 2
  maxBrightness := 0
  brightnessInit := 0
  clkReq := 0
  clkMax := 0
  timerWidth := 32
  cursorInit := 0
  lastTsInit := 0
  loadInit := true
  blankInit := false
  transportPresent := true
  font := []
  spiMode := 0

/-- FREE VALUE (log 4): what the TW-bit register `dwell` holds after construction when the timer width TW (the argument)
is too small for the default 2000 (R30 against R13). -/
opaque Config.dwellTooNarrow : Nat → Word64

/-- FREE VALUE (log 13), CHAIN_CAPTURE (R14, D27): the words the downstream chips hold once a trace has gone out.
Outside the block (R7): no rule reads it. -/
opaque Config.chainCapture : Config → List PinEvent → List ChipWord

end Sys2Proof
end

