-- ==== Sys2Proof/Syntax.lean ====
section
/-! DEFINITION. The commands of the command port (R76, R78): one constructor per row of spec/opcode_table.json. -/

namespace Sys2Proof

/-- A decoded command with its operands as R78 assembles them. Timer operands are TW-bit values carried in 64 bits;
`Instr.wf` says that they fit. -/
inductive Instr where
  /-- PACK g, mask (R108). -/
  | pack (g : BitVec 8) (mask : Word64)
  /-- TICK now (R123). -/
  | tick (now : Word64)
  /-- TRANSFER w1, w2 (R140). -/
  | transfer (w1 w2 : ChipWord)
  /-- SET_DWELL d (R127). -/
  | setDwell (d : Word64)
  /-- GET_DWELL (R128). -/
  | getDwell
  /-- CLEAR (R160). -/
  | clear
  /-- SET_SEGMENT g, s, v (R161). -/
  | setSegment (g s : BitVec 8) (v : Bool)
  /-- SET_GRID g, mask (R162). -/
  | setGrid (g : BitVec 8) (mask : Word64)
  /-- READ_GRID g (R163). -/
  | readGrid (g : BitVec 8)
  /-- GET_BRIGHTNESS (R164). -/
  | getBrightness
deriving DecidableEq, Repr

end Sys2Proof
end

