-- ==== Sys2Proof/WellFormed.lean ====
section
/-! DEFINITION. Which commands can be written down at timer width TW (R77, R83). -/

namespace Sys2Proof

/-- The timer operands of TICK and SET_DWELL are TW-bit values (R77: `D[63:TW]` = 0); every other operand fills its
field exactly and its type carries the bound. -/
def Instr.wf (tw : Nat) : Instr → Bool
  | .pack _ _ => true
  | .tick now => decide (now.toNat < 2 ^ tw)
  | .transfer _ _ => true
  | .setDwell d => decide (d.toNat < 2 ^ tw)
  | .getDwell => true
  | .clear => true
  | .setSegment _ _ _ => true
  | .setGrid _ _ => true
  | .readGrid _ => true
  | .getBrightness => true

end Sys2Proof
end

