-- ==== Sys2Proof/Decode.lean ====
section
/-! DEFINITION. Decoding of command words (R75 to R81), total, refusing by name; and the encoder, from the same table. -/

namespace Sys2Proof

/-- Why a word is not a command. -/
inductive DecodeError where
  /-- The opcode is 0x0 or 0xB to 0xF (R79). -/
  | reservedOpcode
  /-- A must-be-zero bit is set (R80). -/
  | nonzeroReservedField
deriving DecidableEq, Repr

/-- `CW[3:0]`, the opcode OP (R75). -/
def opField (w : CommandWord) : BitVec 4 := w.extractLsb' 0 4

/-- `CW[11:4]`, the grid index operand A (R75). -/
def aField (w : CommandWord) : BitVec 8 := w.extractLsb' 4 8

/-- `CW[19:12]`, the segment index operand B (R75). -/
def bField (w : CommandWord) : BitVec 8 := w.extractLsb' 12 8

/-- `CW[20]`, the on/off operand V (R75). -/
def vField (w : CommandWord) : Bool := w.getLsbD 20

/-- `CW[63:21]`, the reserved field Z (R75). -/
def zField (w : CommandWord) : BitVec 43 := w.extractLsb' 21 43

/-- `CW[127:64]`, the data operand D (R75). -/
def dField (w : CommandWord) : Word64 := w.extractLsb' 64 64

/-- Field A is zero. -/
def aZero (w : CommandWord) : Bool := aField w == 0

/-- Field B is zero. -/
def bZero (w : CommandWord) : Bool := bField w == 0

/-- Field V is zero. -/
def vZero (w : CommandWord) : Bool := !vField w

/-- Field Z is zero, which R77 asks of every opcode. -/
def zZero (w : CommandWord) : Bool := zField w == 0

/-- Field D is zero. -/
def dZero (w : CommandWord) : Bool := dField w == 0

/-- `D[63:TW]` = 0 (R77, TICK and SET_DWELL). -/
def dFitsTimer (tw : Nat) (w : CommandWord) : Bool := decide ((dField w).toNat < 2 ^ tw)

/-- `D[31:20]` = 0 and `D[63:52]` = 0 (R77, TRANSFER). -/
def dIsWordPair (w : CommandWord) : Bool :=
  (dField w).extractLsb' 20 12 == 0 && (dField w).extractLsb' 52 12 == 0

/-- The command, unless a must-be-zero bit is set (R80). -/
def checked (zeroBits : Bool) (i : Instr) : Except DecodeError Instr :=
  if zeroBits then .ok i else .error .nonzeroReservedField

/-- The decoder at timer width `tw`: the opcode first, then the row of R77's table (R79, R80, R203). -/
def decode (tw : Nat) (w : CommandWord) : Except DecodeError Instr :=
  match (opField w).toNat with
  | 0x1 => checked (bZero w && vZero w && zZero w) (.pack (aField w) (dField w))
  | 0x2 => checked (aZero w && bZero w && vZero w && zZero w && dFitsTimer tw w) (.tick (dField w))
  | 0x3 => checked (aZero w && bZero w && vZero w && zZero w && dIsWordPair w)
      (.transfer ((dField w).extractLsb' 0 20) ((dField w).extractLsb' 32 20))
  | 0x4 => checked (aZero w && bZero w && vZero w && zZero w && dFitsTimer tw w) (.setDwell (dField w))
  | 0x5 => checked (aZero w && bZero w && vZero w && zZero w && dZero w) .getDwell
  | 0x6 => checked (aZero w && bZero w && vZero w && zZero w && dZero w) .clear
  | 0x7 => checked (zZero w && dZero w) (.setSegment (aField w) (bField w) (vField w))
  | 0x8 => checked (bZero w && vZero w && zZero w) (.setGrid (aField w) (dField w))
  | 0x9 => checked (bZero w && vZero w && zZero w && dZero w) (.readGrid (aField w))
  | 0xA => checked (aZero w && bZero w && vZero w && zZero w && dZero w) .getBrightness
  | _ => .error .reservedOpcode

/-- The decoder's reading of an opcode-table word. The table's masks are shown at TW = 32 (opcode_table.json, notes of
TICK and SET_DWELL), which is the timer width of `Config.specialised` (log 10). -/
def decodeTableWord (nbits w : Nat) : Option Instr :=
  (decode Config.specialised.timerWidth (BitVec.ofNat 128 (w % 2 ^ nbits))).toOption

/-! ### The encoder -/

/-- The opcode of a command (R76). -/
def Instr.opcode : Instr → BitVec 4
  | .pack _ _ => 0x1#4
  | .tick _ => 0x2#4
  | .transfer _ _ => 0x3#4
  | .setDwell _ => 0x4#4
  | .getDwell => 0x5#4
  | .clear => 0x6#4
  | .setSegment _ _ _ => 0x7#4
  | .setGrid _ _ => 0x8#4
  | .readGrid _ => 0x9#4
  | .getBrightness => 0xA#4

/-- A command word laid out as R75 says, `D ∥ Z ∥ V ∥ B ∥ A ∥ OP` with Z = 0. -/
def layOut (op : BitVec 4) (a b : BitVec 8) (v : Bool) (d : Word64) : CommandWord :=
  d ++ (0#43 ++ (BitVec.ofBool v ++ (b ++ (a ++ op))))

/-- TRANSFER's D field, word1 in `D[19:0]` and word2 in `D[51:32]` (R77). PACK's response has the same layout (R82). -/
def wordPair (w1 w2 : ChipWord) : Word64 :=
  (w2.setWidth 64 <<< 32) ||| w1.setWidth 64

/-- The encoder (R76, R77). It gives the word of a well-formed command. -/
def encode : Instr → CommandWord
  | .pack g mask => layOut 0x1#4 g 0#8 false mask
  | .tick now => layOut 0x2#4 0#8 0#8 false now
  | .transfer w1 w2 => layOut 0x3#4 0#8 0#8 false (wordPair w1 w2)
  | .setDwell d => layOut 0x4#4 0#8 0#8 false d
  | .getDwell => layOut 0x5#4 0#8 0#8 false 0#64
  | .clear => layOut 0x6#4 0#8 0#8 false 0#64
  | .setSegment g s v => layOut 0x7#4 g s v 0#64
  | .setGrid g mask => layOut 0x8#4 g 0#8 false mask
  | .readGrid g => layOut 0x9#4 g 0#8 false 0#64
  | .getBrightness => layOut 0xA#4 0#8 0#8 false 0#64

end Sys2Proof
end

