-- ==== Sys2Proof/Machine/Layout.lean ====
section
/-! DEFINITION. Constants derived from the configuration (R12, R22 to R25) and the check made at construction (R230). -/

namespace Sys2Proof.Machine

/-- Outputs of one driver chip (R11). -/
def chipOutputs : Nat := 20

/-- TOTAL_BITS = G + S (R22). -/
def totalBits (c : Config) : Nat := c.grids + c.segments

/-- REQUIRED_CHIPS = ceil(TOTAL_BITS / 20) (R22). -/
def requiredChips (c : Config) : Nat := (totalBits c + (chipOutputs - 1)) / chipOutputs

/-- MASK1, the chip 1 mask: all 20 bits usable (R23). -/
def mask1 : ChipWord := 0xFFFFF#20

/-- MASK2, the chip 2 mask: 2^k - 1 with k = max(0, G + S - 20) (R24). Subtraction of natural numbers stops at 0. -/
def mask2 (c : Config) : ChipWord := BitVec.ofNat 20 (2 ^ (totalBits c - chipOutputs) - 1)

/-- BRIGHT_W, the width of the brightness register (R14). -/
def brightnessWidth : Nat := 8

/-- DWELL_DEFAULT, in µs (R14). -/
def dwellDefault : Nat := 2000

/-- The capacity invariant of R12: G + S does not exceed the outputs of the chip chain. -/
def fitsChain (c : Config) : Bool := decide (totalBits c ≤ chipOutputs * c.chips)

/-- Construction's check (R230, step 1): the ranges of R9 to R12 and the parameter ranges of D30. -/
def validConfig (c : Config) : Bool :=
  decide (1 ≤ c.grids) && decide (c.grids ≤ 16)
  && decide (1 ≤ c.segments) && decide (c.segments ≤ 64)
  && (decide (c.chips = 1) || decide (c.chips = 2))
  && fitsChain c
  && decide (1 ≤ c.timerWidth) && decide (c.timerWidth ≤ 64)
  && decide (c.cursorInit < c.grids) && decide (c.lastTsInit < 2 ^ c.timerWidth)
  && decide (c.brightnessInit ≤ c.maxBrightness) && decide (c.brightnessInit < 2 ^ brightnessWidth)

end Sys2Proof.Machine
end

