-- ==== Sys2Proof/Machine/State.lean ====
section
/-! DEFINITION. The state of the block (10_state.md), the reasons a step can stop, and the state right after reset. -/

namespace Sys2Proof.Machine

/-- Why the machine stops (R205). The block itself raises no exception (R200). -/
inductive Fault where
  /-- Raised by a transfer (TRANSFER, or a TICK that advances) when TRANSPORT_PRESENT is false (R144). The source calls
  that behaviour undefined. Safe: no frame is invented. -/
  | transportUnavailable
deriving DecidableEq, Repr

/-- The stubbed features a request for which is refused by name (R205, U2, U3). -/
inductive StubbedFeature where
  | decimalPoint
  | colon
  | timeDisplay
  | brightnessPwm
  | scrollFadeAnimation
  | selfTest
  | numericFormatting
deriving DecidableEq, Repr

/-- Why a word, a configuration or a request is refused (R205). -/
inductive Refusal where
  /-- Raised by `exec` for an instruction that has no meaning yet. Safe. -/
  | notModelled (mnemonic : String)
  /-- Raised by `step` for a word with a reserved opcode (R79). Safe. -/
  | reservedOpcode
  /-- Raised by `step` for a word with a must-be-zero bit set (R80). Safe. -/
  | nonzeroReservedField
  /-- Raised by `construct` for a configuration outside R230's ranges. Safe: no state exists. -/
  | invalidConfiguration
  /-- Raised by `transcribe` for a stubbed feature, which has no command word (R205, D26; log 18). Safe. -/
  | unimplementedFeature (feature : StubbedFeature)
deriving DecidableEq, Repr

/-- The Scan Scheduler's state (R36, R126). -/
inductive Sched where
  | idle
  | scanning
deriving DecidableEq, Repr

/-- The segment store as data: pairs of a grid index and its 64-bit entry (R26, R50), in rising order of index, with no
entry equal to 0, which is what an unlisted index reads as (log 6). -/
abbrev Memory := List (Nat × Word64)

/-- Everything the spec gives the block (INVENTORY.md, State). -/
structure State where
  /-- The Display Configuration and the parameters (R14, R20). No command writes it (log 1). -/
  cfg : Config
  /-- The segment store (R26). -/
  seg : Memory
  /-- The scan cursor, 4 bits (R28). -/
  cursor : BitVec 4
  /-- The timestamp of the last advance, a TW-bit register carried in 64 bits (R29, log 5). -/
  lastTs : Word64
  /-- The dwell period in µs, a TW-bit register carried in 64 bits (R30, log 5). -/
  dwell : Word64
  /-- The stored brightness, BRIGHT_W = 8 bits (R31). -/
  brightness : BitVec 8
  /-- CLK_EFF, the effective serial clock rate (R32). -/
  clkEff : Nat
  /-- The level last driven on the LOAD line (R34). -/
  load : Bool
  /-- The level of the BLANK line, set by software outside the core (R35). -/
  blank : Bool
  /-- The scheduler's state (R36). -/
  sched : Sched
  /-- The pin events so far, oldest first (R33). -/
  trace : List PinEvent
  /-- The response words so far, oldest first (R82, R243; log 9). -/
  responses : List Word64
  /-- The command words issued and not yet executed, oldest first (R21, R243; log 7). -/
  pending : List CommandWord
  /-- The `faulted` mark with its first reason (R38; log 8). No command reads it. -/
  faulted : Option Fault
  /-- The `refused` mark with its first reason (R38; log 8). No command reads it. -/
  refused : Option Refusal
deriving DecidableEq, Repr

/-- The block right after construction with `Config.specialised` (R230, reset table of 10_state.md).
DESIGN CHOICE (log 3): the OPEN values BRIGHTNESS_INIT, CLK_REQ, CLK_MAX and BLANK_INIT are 0.
`construct` (Machine/Construct.lean) is the same for every configuration. -/
def State.reset : State where
  cfg := Config.specialised
  seg := []
  cursor := 0#4
  lastTs := 0#64
  dwell := 2000#64
  brightness := 0#8
  clkEff := 0
  load := true
  blank := false
  sched := .idle
  trace := []
  responses := []
  pending := []
  faulted := none
  refused := none

end Sys2Proof.Machine
end

