-- ==== Sys2Proof/Machine/Operands.lean ====
section
/-! DEFINITION. How operands and register values are narrowed (R15, R78): nothing is sign-extended or scaled. -/

namespace Sys2Proof.Machine

/-- `v[n-1:0]`, zero-extended back to the width of v (R15). With n at or above the width it is v. -/
def lowBits {w : Nat} (n : Nat) (v : BitVec w) : BitVec w := BitVec.ofNat w (v.toNat % 2 ^ n)

/-- `mask[S-1:0]` as a 64-bit entry: bits at or above S are dropped (R101, R162). -/
def segmentBits (c : Config) (m : Word64) : Word64 := lowBits c.segments m

/-- What a TW-bit register keeps of a value: its low TW bits (R29, R30, R78; log 5). -/
def timerBits (c : Config) (v : Word64) : Word64 := lowBits c.timerWidth v

/-- A grid index operand, 0..255, unsigned (R78). -/
abbrev gridIndex (g : BitVec 8) : Nat := g.toNat

/-- A segment index operand, 0..255, unsigned (R78). -/
abbrev segmentIndex (s : BitVec 8) : Nat := s.toNat

/-- `e[s] <- v`: one bit of an entry replaced (R161). -/
def putBit (e : Word64) (s : Nat) (v : Bool) : Word64 :=
  if v then e ||| (1#64 <<< s) else e &&& ~~~(1#64 <<< s)

end Sys2Proof.Machine
end

