-- ==== Sys2Proof/Machine/Flags.lean ====
section
/-! DEFINITION. The conditions commands test. The block has no status flag and no condition code (R206): these are
computed inside a step and stored nowhere. -/

namespace Sys2Proof.Machine

/-- `InRange(g)`: g < G (R50). -/
def inRange (c : Config) (g : Nat) : Bool := decide (g < c.grids)

/-- s < S (R161). -/
def segmentInRange (c : Config) (s : Nat) : Bool := decide (s < c.segments)

/-- `Elapsed(now)` = (now - last_ts) mod 2^TW (R120). -/
def elapsed (s : State) (now : Word64) : Word64 := timerBits s.cfg (now - s.lastTs)

/-- TICK advances iff `Elapsed(now)` ≥ dwell, compared unsigned (R121). -/
def advances (s : State) (now : Word64) : Bool := decide (s.dwell.toNat ≤ (elapsed s now).toNat)

end Sys2Proof.Machine
end

