-- ==== Sys2Proof/Machine/Ops.lean ====
section
/-! DEFINITION. The shared operations over the segment store, the registers, the pins and the ports (R16, R50). -/

namespace Sys2Proof.Machine

/-! ### The segment store -/

/-- The canonical form: indices strictly rising, no entry equal to what an unlisted index reads as (log 6). -/
abbrev Memory.wf (m : Memory) : Prop :=
  m.Pairwise (fun x y => x.1 < y.1) ∧ ∀ e ∈ m, e.2 ≠ 0#64

/-- What an index that is not listed reads as: the all-zero entry of R26. -/
def Memory.unlisted : Word64 := 0#64

/-- The entry at index g. -/
def Memory.read : Memory → Nat → Word64
  | [], _ => Memory.unlisted
  | (k, x) :: t, g => if g = k then x else Memory.read t g

/-- The store with v at index g, in canonical form: v equal to `Memory.unlisted` removes the entry. -/
def Memory.write : Memory → Nat → Word64 → Memory
  | [], g, v => if v = Memory.unlisted then [] else [(g, v)]
  | (k, x) :: t, g, v =>
    if g < k then (if v = Memory.unlisted then (k, x) :: t else (g, v) :: (k, x) :: t)
    else if g = k then (if v = Memory.unlisted then t else (g, v) :: t)
    else (k, x) :: Memory.write t g v

/-- `MemRead(g)` (R50). The caller has tested `inRange`. -/
def memRead (s : State) (g : Nat) : Word64 := s.seg.read g

/-- `MemWrite(g, v)` (R50). The caller has tested `inRange` and `v[63:S]` = 0. -/
def memWrite (g : Nat) (v : Word64) (s : State) : State := { s with seg := s.seg.write g v }

/-- `for g in 0..n-1: MemWrite(g, 0)` (R160). -/
def clearBelow : Nat → State → State
  | 0, s => s
  | n + 1, s => memWrite n 0#64 (clearBelow n s)

/-! ### Registers -/

/-- `cursor <- (cursor + 1) mod G` (R122). -/
def advanceCursor (s : State) : State :=
  { s with cursor := BitVec.ofNat 4 ((s.cursor.toNat + 1) % s.cfg.grids) }

/-- `last_ts <- now`, a TW-bit register (R29, R123). -/
def setLastTs (now : Word64) (s : State) : State := { s with lastTs := timerBits s.cfg now }

/-- `dwell <- d`, a TW-bit register (R30, R127). -/
def setDwellReg (d : Word64) (s : State) : State := { s with dwell := timerBits s.cfg d }

/-- The scheduler's state changes (R36, R126). -/
def setSched (x : Sched) (s : State) : State := { s with sched := x }

/-! ### Pins and ports -/

/-- `Emit(e)`: append a pin event to the trace (R16, R33). -/
def emit (e : PinEvent) (s : State) : State := { s with trace := s.trace ++ [e] }

/-- `Emit(LoadSet(v)); load <- v` (R34, R141). -/
def driveLoad (v : Bool) (s : State) : State := { emit (.loadSet v) s with load := v }

/-- `respond(v)`: place a response word on the response port (R16, R82). -/
def respond (v : Word64) (s : State) : State := { s with responses := s.responses ++ [v] }

/-- The caller issues a command word: it waits behind those already issued (R17, R58). -/
def issue (w : CommandWord) (s : State) : State := { s with pending := s.pending ++ [w] }

/-- The oldest command word waiting on the command port is taken off it (R17, R58). -/
def takeCommand (s : State) : State := { s with pending := s.pending.tail }

/-! ### Stops (R205) -/

/-- `raise <Fault>`: the step ends in the named fault (R16). The block has no trap entry (R204). -/
def raise (r : Fault) : Host.Outcome State Fault Refusal := .fault r

/-- The refusal a decoding error stands for (R79, R80). -/
def refusalOf : DecodeError → Refusal
  | .reservedOpcode => .reservedOpcode
  | .nonzeroReservedField => .nonzeroReservedField

/-- The `faulted` mark is set (R38). A mark already set keeps its first reason (log 8). -/
def markFaulted (r : Fault) (s : State) : State := { s with faulted := some (s.faulted.getD r) }

/-- The `refused` mark is set (R38). A mark already set keeps its first reason (log 8). -/
def markRefused (r : Refusal) (s : State) : State := { s with refused := some (s.refused.getD r) }

end Sys2Proof.Machine
end

