-- ==== Sys2Proof/Machine/Content.lean ====
section
/-! DEFINITION. The display content commands (43_display_content.md): CLEAR, SET_SEGMENT, SET_GRID, READ_GRID,
GET_BRIGHTNESS; the font; and the expansion of DISPLAY_STRING. -/

namespace Sys2Proof.Machine

/-- CLEAR (R160): every entry 0..G-1 becomes 0. -/
def execClear (s : State) : Host.Outcome State Fault Refusal := .next (clearBelow s.cfg.grids s)

/-- SET_SEGMENT g, s, v (R161): one bit of one entry, or nothing when an index is out of range (R201). -/
def execSetSegment (g seg : BitVec 8) (v : Bool) (s : State) : Host.Outcome State Fault Refusal :=
  if inRange s.cfg (gridIndex g) && segmentInRange s.cfg (segmentIndex seg) then
    .next (memWrite (gridIndex g) (putBit (memRead s (gridIndex g)) (segmentIndex seg) v) s)
  else .next s

/-- SET_GRID g, mask (R162): one whole entry, without the bits at or above S; nothing when g is out of range. -/
def execSetGrid (g : BitVec 8) (mask : Word64) (s : State) : Host.Outcome State Fault Refusal :=
  if inRange s.cfg (gridIndex g) then .next (memWrite (gridIndex g) (segmentBits s.cfg mask) s) else .next s

/-- READ_GRID g (R163): the response is the entry, or 0 when g is out of range. -/
def execReadGrid (g : BitVec 8) (s : State) : Host.Outcome State Fault Refusal :=
  .next (respond (if inRange s.cfg (gridIndex g) then memRead s (gridIndex g) else 0#64) s)

/-- GET_BRIGHTNESS (R164): the response is zext_64(brightness). -/
def execGetBrightness (s : State) : Host.Outcome State Fault Refusal := .next (respond (s.brightness.setWidth 64) s)

/-! ### The font and DISPLAY_STRING -/

/-- The entry of the font table under exactly this character. -/
def fontEntry : FontTable → Char → Option Word64
  | [], _ => none
  | (k, p) :: t, c => if c = k then some p else fontEntry t c

/-- The pattern of a character, looked up under its upper-case form (R165; log 11). -/
def fontLookup (t : FontTable) (c : Char) : Option Word64 := fontEntry t c.toUpper

/-- `HAS_PATTERN(c)` (R165). -/
def hasPattern (t : FontTable) (c : Char) : Bool := (fontLookup t c).isSome

/-- `FONT(c)`: the blank pattern for a character with no entry (R165). -/
def fontPattern (t : FontTable) (c : Char) : Word64 := (fontLookup t c).getD 0#64

/-- The character DISPLAY_STRING shows on grid i: padded with spaces (R166). -/
def charAt (t : List Char) (i : Nat) : Char := t.getD i ' '

/-- DISPLAY_STRING (R84, R166): one SET_GRID for each grid 0..G-1, in ascending order. -/
def displayString (c : Config) (t : List Char) : List Instr :=
  (List.range c.grids).map fun i => .setGrid (BitVec.ofNat 8 i) (fontPattern c.font (charAt t i))

end Sys2Proof.Machine
end

