-- ==== Sys2Proof/Machine/Packer.lean ====
section
/-! DEFINITION. The Bit Packer (40_bit_packer.md): PACK. -/

namespace Sys2Proof.Machine

/-- `GridSel(g)`: the one-hot grid-select field, empty for g ≥ G (R100, R106). -/
def gridSel (c : Config) (g : Nat) : CombinedWord := if inRange c g then 1#40 <<< g else 0#40

/-- `SegField(m)` = zext_40(m[S-1:0]) << G (R101). -/
def segField (c : Config) (m : Word64) : CombinedWord := (segmentBits c m).setWidth 40 <<< c.grids

/-- `Combine(g, m)` = GridSel(g) | SegField(m) (R102). -/
def combine (c : Config) (g : Nat) (m : Word64) : CombinedWord := gridSel c g ||| segField c m

/-- word1: the lowest 20 bits of the combined word, masked (R103, R104). -/
def word1 (c : Config) (g : Nat) (m : Word64) : ChipWord := (combine c g m).extractLsb' 0 20 &&& mask1

/-- word2: the remaining 20 bits of the combined word, masked (R103, R104). -/
def word2 (c : Config) (g : Nat) (m : Word64) : ChipWord := (combine c g m).extractLsb' 20 20 &&& mask2 c

/-- `Pack(g, m)` (R105). A function of the configuration and its arguments alone (R107). -/
def pack (c : Config) (g : Nat) (m : Word64) : ChipWord × ChipWord := (word1 c g m, word2 c g m)

/-- PACK g, mask (R108): the response is (word2 << 32) | word1 (R82). -/
def execPack (g : BitVec 8) (mask : Word64) (s : State) : Host.Outcome State Fault Refusal :=
  let p := pack s.cfg (gridIndex g) mask
  .next (respond (wordPair p.1 p.2) s)

end Sys2Proof.Machine
end

