-- ==== Sys2Proof/Machine/Transfer.lean ====
section
/-! DEFINITION. The Transfer Driver (42_transfer_driver.md): TRANSFER, and the frame on the wire. -/

namespace Sys2Proof.Machine

/-- `WordBytes(w)`: a word as three bytes, most significant first, the first holding only the top nibble (R73). -/
def wordBytes (w : ChipWord) : List WireByte :=
  [(w.extractLsb' 16 4).setWidth 8, w.extractLsb' 8 8, w.extractLsb' 0 8]

/-- Shift bytes out in order: one ShiftByte event each (R33, R141). -/
def shiftBytes : List WireByte → State → State
  | [], s => s
  | b :: t, s => shiftBytes t (emit (.shiftByte b) s)

/-- The events of `DoTransfer` once the transport is known to be there (R141): LOAD low, word1, word2 where there are two
chips, LOAD high. -/
def sendFrame (w1 w2 : ChipWord) (s : State) : State :=
  let s1 := driveLoad false s
  let s2 := shiftBytes (wordBytes w1) s1
  let s3 := if s2.cfg.chips = 2 then shiftBytes (wordBytes w2) s2 else s2
  driveLoad true s3

/-- `DoTransfer(w1, w2)` (R141): the fault of R144 before the first event when there is no transport. -/
def doTransfer (w1 w2 : ChipWord) (s : State) : Host.Outcome State Fault Refusal :=
  if s.cfg.transportPresent then .next (sendFrame w1 w2 s) else raise .transportUnavailable

/-- TRANSFER w1, w2 (R140): the words as given, with no mask (R146). -/
def execTransfer (w1 w2 : ChipWord) (s : State) : Host.Outcome State Fault Refusal := doTransfer w1 w2 s

/-! ### The frame and its serial bits -/

/-- `Frame(w1, w2)` (R72): the events of one transfer. -/
def frame (c : Config) (w1 w2 : ChipWord) : List PinEvent :=
  [.loadSet false]
  ++ (wordBytes w1).map .shiftByte
  ++ (if c.chips = 2 then (wordBytes w2).map .shiftByte else [])
  ++ [.loadSet true]

/-- The bits one event puts on the serial data line, in time order: b[7] first (R74). -/
def serialBitsOf : PinEvent → List Bool
  | .loadSet _ => []
  | .shiftByte b => [b.getLsbD 7, b.getLsbD 6, b.getLsbD 5, b.getLsbD 4, b.getLsbD 3, b.getLsbD 2, b.getLsbD 1, b.getLsbD 0]

/-- The bits a sequence of events puts on the serial data line, in time order (R74). -/
def serialBits (es : List PinEvent) : List Bool := es.flatMap serialBitsOf

/-- What the downstream chips hold: the block does not determine it (R7, R231, D27). -/
def capturedWords (s : State) : List ChipWord := Config.chainCapture s.cfg s.trace

end Sys2Proof.Machine
end

