-- ==== Sys2Proof/Machine/Scheduler.lean ====
section
/-! DEFINITION. The Scan Scheduler (41_scan_scheduler.md): TICK, SET_DWELL, GET_DWELL. -/

namespace Sys2Proof.Machine

/-- The start of a scan: the scheduler is SCANNING and the cursor is on the next grid (R122, R123). -/
def beginScan (s : State) : State := advanceCursor (setSched .scanning s)

/-- The end of a scan: `last_ts <- now`, and the scheduler is IDLE again (R123). -/
def endScan (now : Word64) (s : State) : State := setSched .idle (setLastTs now s)

/-- A scan that the fault of its transfer ends: the cursor has advanced, `last_ts` is not written (R123), and the scheduler
is IDLE again, as it is between any two commands (R36; log 8). -/
def abandonScan (s : State) : State := setSched .idle (beginScan s)

/-- The words of the grid under the cursor: Pack(cursor, MemRead(cursor)) (R123). -/
def cursorWords (s : State) : ChipWord × ChipWord :=
  pack s.cfg s.cursor.toNat (memRead s s.cursor.toNat)

/-- A TICK that advances (R123): advance, pack the grid the cursor is now on, transfer, record now. A fault of the
transfer ends the step before now is recorded. -/
def scanNext (now : Word64) (s : State) : Host.Outcome State Fault Refusal :=
  let s1 := beginScan s
  match doTransfer (cursorWords s1).1 (cursorWords s1).2 s1 with
  | .next s2 => .next (endScan now s2)
  | .fault r => .fault r
  | .refused r => .refused r

/-- TICK now (R123): nothing unless the dwell period has elapsed (R121). -/
def execTick (now : Word64) (s : State) : Host.Outcome State Fault Refusal :=
  if advances s now then scanNext now s else .next s

/-- SET_DWELL d (R127). -/
def execSetDwell (d : Word64) (s : State) : Host.Outcome State Fault Refusal := .next (setDwellReg d s)

/-- GET_DWELL (R128): the response is zext_64(dwell). -/
def execGetDwell (s : State) : Host.Outcome State Fault Refusal := .next (respond s.dwell s)

end Sys2Proof.Machine
end

