-- ==== Sys2Proof/Machine/Dispatch.lean ====
section
/-! DEFINITION. One arm per command of the command port (R76). -/

namespace Sys2Proof.Machine

def exec (i : Instr) (s : State) : Host.Outcome State Fault Refusal :=
  match i with
  | .pack g mask => Sys2Proof.Machine.execPack g mask s
  | .tick now => Sys2Proof.Machine.execTick now s
  | .transfer w1 w2 => Sys2Proof.Machine.execTransfer w1 w2 s
  | .setDwell d => Sys2Proof.Machine.execSetDwell d s
  | .getDwell => Sys2Proof.Machine.execGetDwell s
  | .clear => Sys2Proof.Machine.execClear s
  | .setSegment g sg v => Sys2Proof.Machine.execSetSegment g sg v s
  | .setGrid g mask => Sys2Proof.Machine.execSetGrid g mask s
  | .readGrid g => Sys2Proof.Machine.execReadGrid g s
  | .getBrightness => Sys2Proof.Machine.execGetBrightness s

end Sys2Proof.Machine
end

