-- ==== Sys2Proof/Machine/Step.lean ====
section
/-! DEFINITION. One step of the block: the oldest waiting command word is decoded and executed (R17, R58, R203). -/

namespace Sys2Proof.Machine

/-- One step. The marks of R38 are not read: the block never halts, whatever went before (R243). With no command waiting
nothing happens, for nothing in the block advances without a command (R130). -/
def step (s : State) : Host.Outcome State Fault Refusal :=
  match s.pending with
  | [] => .next s
  | w :: _ =>
    match decode s.cfg.timerWidth w with
    | .ok i => exec i (takeCommand s)
    | .error e => .refused (refusalOf e)

/-- The state in which this word is the next one `step` takes: it stands at the head of the command port. The block holds
no program; its commands come from the caller (R21; log 7). -/
def State.withFetchWord (s : State) (nbits w : Nat) : State :=
  { s with pending := BitVec.ofNat 128 (w % 2 ^ nbits) :: s.pending }

end Sys2Proof.Machine
end

