-- ==== Sys2Proof/Machine/Boards.lean ====
section
/-! DEFINITION. Several blocks side by side, one per display (R63, R209): a command addresses exactly one of them. -/

namespace Sys2Proof.Machine

/-- Distinct blocks: each has its own configuration, store, registers and trace (R63). -/
abbrev Boards := List State

/-- Block k takes a step; every other block is as it was. A k that names no block changes nothing. -/
def stepBoard : Nat → Boards → Host.Outcome Boards Fault Refusal
  | _, [] => .next []
  | 0, b :: t =>
    match step b with
    | .next b' => .next (b' :: t)
    | .fault r => .fault r
    | .refused r => .refused r
  | k + 1, b :: t =>
    match stepBoard k t with
    | .next t' => .next (b :: t')
    | .fault r => .fault r
    | .refused r => .refused r

end Sys2Proof.Machine
end

