-- ==== Sys2Proof/Machine/Assembler.lean ====
section
/-! DEFINITION. The assembler syntax of R83 and the pseudo-command of R84: a line of text gives command words or an
assembly error. Lexical points R83 leaves open are in log 14. -/

namespace Sys2Proof.Machine

/-- Why a line gives no word (R83). -/
inductive AsmError where
  /-- The mnemonic is none of R83's and not DISPLAY_STRING. -/
  | unknownMnemonic
  /-- The command takes another number of operands. -/
  | operandCount
  /-- An operand is not an unsigned integer in decimal or `0x` hexadecimal. -/
  | operandForm
  /-- An operand does not fit its field. -/
  | operandRange
  /-- DISPLAY_STRING is not followed by one quoted text. -/
  | stringForm
deriving DecidableEq, Repr

/-! ### Operands that fit their fields -/

/-- A grid or segment index: 0..255. -/
def asmIndex (n : Nat) : Except AsmError (BitVec 8) :=
  if n ≤ 255 then .ok (BitVec.ofNat 8 n) else .error .operandRange

/-- The on/off operand: 0 or 1. -/
def asmOnOff (n : Nat) : Except AsmError Bool :=
  if n ≤ 1 then .ok (decide (n = 1)) else .error .operandRange

/-- A segment mask: 64 bits. -/
def asmMask (n : Nat) : Except AsmError Word64 :=
  if n < 2 ^ 64 then .ok (BitVec.ofNat 64 n) else .error .operandRange

/-- A timer value: below 2^TW, and in 64 bits. -/
def asmTimer (tw n : Nat) : Except AsmError Word64 :=
  if n < 2 ^ tw ∧ n < 2 ^ 64 then .ok (BitVec.ofNat 64 n) else .error .operandRange

/-- A chip word: below 2^20. -/
def asmChipWord (n : Nat) : Except AsmError ChipWord :=
  if n < 2 ^ 20 then .ok (BitVec.ofNat 20 n) else .error .operandRange

/-- The command a mnemonic and its operands stand for (R83's table of operand orders). -/
def assemble (tw : Nat) (mnemonic : List Char) (ops : List Nat) : Except AsmError Instr :=
  if mnemonic = ['P', 'A', 'C', 'K'] then
    match ops with
    | [g, mask] => do return .pack (← asmIndex g) (← asmMask mask)
    | _ => .error .operandCount
  else if mnemonic = ['T', 'I', 'C', 'K'] then
    match ops with
    | [now] => do return .tick (← asmTimer tw now)
    | _ => .error .operandCount
  else if mnemonic = ['T', 'R', 'A', 'N', 'S', 'F', 'E', 'R'] then
    match ops with
    | [w1, w2] => do return .transfer (← asmChipWord w1) (← asmChipWord w2)
    | _ => .error .operandCount
  else if mnemonic = ['S', 'E', 'T', '_', 'D', 'W', 'E', 'L', 'L'] then
    match ops with
    | [d] => do return .setDwell (← asmTimer tw d)
    | _ => .error .operandCount
  else if mnemonic = ['G', 'E', 'T', '_', 'D', 'W', 'E', 'L', 'L'] then
    match ops with
    | [] => .ok .getDwell
    | _ => .error .operandCount
  else if mnemonic = ['C', 'L', 'E', 'A', 'R'] then
    match ops with
    | [] => .ok .clear
    | _ => .error .operandCount
  else if mnemonic = ['S', 'E', 'T', '_', 'S', 'E', 'G', 'M', 'E', 'N', 'T'] then
    match ops with
    | [g, s, v] => do return .setSegment (← asmIndex g) (← asmIndex s) (← asmOnOff v)
    | _ => .error .operandCount
  else if mnemonic = ['S', 'E', 'T', '_', 'G', 'R', 'I', 'D'] then
    match ops with
    | [g, mask] => do return .setGrid (← asmIndex g) (← asmMask mask)
    | _ => .error .operandCount
  else if mnemonic = ['R', 'E', 'A', 'D', '_', 'G', 'R', 'I', 'D'] then
    match ops with
    | [g] => do return .readGrid (← asmIndex g)
    | _ => .error .operandCount
  else if mnemonic = ['G', 'E', 'T', '_', 'B', 'R', 'I', 'G', 'H', 'T', 'N', 'E', 'S', 'S'] then
    match ops with
    | [] => .ok .getBrightness
    | _ => .error .operandCount
  else .error .unknownMnemonic

/-! ### The text of a line -/

/-- White space between the parts of a line. -/
def isBlank (c : Char) : Bool := c == ' ' || c == '\t' || c == '\r'

/-- The text without white space at either end. -/
def trimBlanks (t : List Char) : List Char := ((t.dropWhile isBlank).reverse.dropWhile isBlank).reverse

/-- A `;` starts a comment (R83). -/
def dropComment (t : List Char) : List Char := t.takeWhile (· != ';')

/-- The parts between commas (R83). -/
def splitCommas : List Char → List (List Char)
  | [] => [[]]
  | c :: t =>
    if c = ',' then [] :: splitCommas t
    else match splitCommas t with
      | [] => [[c]]
      | h :: r => (c :: h) :: r

/-- The value of a digit, to be compared with the base. -/
def digitValue (c : Char) : Option Nat :=
  if '0'.toNat ≤ c.toNat ∧ c.toNat ≤ '9'.toNat then some (c.toNat - '0'.toNat)
  else if 'a'.toNat ≤ c.toNat ∧ c.toNat ≤ 'f'.toNat then some (c.toNat - 'a'.toNat + 10)
  else if 'A'.toNat ≤ c.toNat ∧ c.toNat ≤ 'F'.toNat then some (c.toNat - 'A'.toNat + 10)
  else none

/-- Digits in a base, after those already read. -/
def readDigits (base : Nat) : Nat → List Char → Option Nat
  | acc, [] => some acc
  | acc, c :: t =>
    match digitValue c with
    | some d => if d < base then readDigits base (acc * base + d) t else none
    | none => none

/-- An unsigned integer in decimal or `0x` hexadecimal (R83). -/
def readNumber (t : List Char) : Option Nat :=
  match t with
  | [] => none
  | ['0', 'x'] => none
  | '0' :: 'x' :: ds => readDigits 16 0 ds
  | ds => readDigits 10 0 ds

/-- The operands of a line: none where nothing follows the mnemonic. -/
def readOperands (t : List Char) : Except AsmError (List Nat) :=
  if trimBlanks t = [] then .ok []
  else match (splitCommas t).mapM (fun p => readNumber (trimBlanks p)) with
    | some ns => .ok ns
    | none => .error .operandForm

/-- The text between double quotes, with nothing but a comment after it. A `;` between the quotes is a character of the text
and starts no comment: R83 does not say which it is (DESIGN CHOICE, log 14). -/
def readQuoted (t : List Char) : Except AsmError (List Char) :=
  match t.dropWhile isBlank with
  | '"' :: r =>
    match r.dropWhile (· != '"') with
    | '"' :: after => if trimBlanks (dropComment after) = [] then .ok (r.takeWhile (· != '"')) else .error .stringForm
    | _ => .error .stringForm
  | _ => .error .stringForm

/-- The commands of one line (R83, R84): none for a line that holds no mnemonic, G for DISPLAY_STRING, else one. A `;` starts
a comment except inside the quoted text of DISPLAY_STRING (DESIGN CHOICE, log 14). -/
def assembleLine (c : Config) (line : List Char) : Except AsmError (List Instr) :=
  let body := line.dropWhile isBlank
  let mnemonic := body.takeWhile (fun x => !isBlank x && x != ';')
  let rest := body.drop mnemonic.length
  if mnemonic = [] then .ok []
  else if mnemonic = ['D', 'I', 'S', 'P', 'L', 'A', 'Y', '_', 'S', 'T', 'R', 'I', 'N', 'G'] then
    match readQuoted rest with
    | .ok t => .ok (displayString c t)
    | .error e => .error e
  else
    match readOperands (dropComment rest) with
    | .ok ns =>
      match assemble c.timerWidth mnemonic ns with
      | .ok i => .ok [i]
      | .error e => .error e
    | .error e => .error e

end Sys2Proof.Machine
end

