-- ==== Sys2Proof/Machine/Marks.lean ====
section
/-! DEFINITION. The state a step leaves whatever its outcome, with the marks `faulted` and `refused` (R38, R79, R123,
R205), and a run of the command port (R243). -/

namespace Sys2Proof.Machine

/-- The state in which a fault leaves the block (R123, R204): TICK has advanced its cursor and recorded nothing; TRANSFER
has done nothing. A command that never faults leaves what it found. The block goes on from there (R243). -/
def leftByFault (i : Instr) (s : State) : State :=
  match i with
  | .pack _ _ => s
  | .tick _ => abandonScan s
  | .transfer _ _ => s
  | .setDwell _ => s
  | .getDwell => s
  | .clear => s
  | .setSegment _ _ _ => s
  | .setGrid _ _ => s
  | .readGrid _ => s
  | .getBrightness => s

/-- Executing a command, marks included. -/
def execMarked (i : Instr) (s : State) : State :=
  match exec i s with
  | .next t => t
  | .fault r => markFaulted r (leftByFault i s)
  | .refused r => markRefused r s

/-- One step, marks included: a refused word sets its mark and changes nothing else (R79, R80). A marked state steps as any
other, its marks kept: no state is terminal (R38, R243). -/
def stepMarked (s : State) : State :=
  match s.pending with
  | [] => s
  | w :: _ =>
    match decode s.cfg.timerWidth w with
    | .ok i => execMarked i (takeCommand s)
    | .error e => markRefused (refusalOf e) (takeCommand s)

/-- `n` steps, marks included. -/
def stepsMarked : Nat → State → State
  | 0, s => s
  | n + 1, s => stepsMarked n (stepMarked s)

/-- The caller issues a sequence of words to a state and every one is stepped, those after a stop too (R243). -/
def runWords (ws : List CommandWord) (s : State) : State :=
  stepsMarked ws.length (ws.foldl (fun t w => issue w t) s)

/-- A state with neither mark; only such a state is final (R38, R205). -/
def unmarked (s : State) : Bool := s.faulted.isNone && s.refused.isNone

end Sys2Proof.Machine
end

