-- ==== Sys2Proof/Machine/Caller.lean ====
section
/-! DEFINITION. What the caller can ask of the block: commands, DISPLAY_STRING, and stubbed features, which are refused by
name (R84, R205, D26). -/

namespace Sys2Proof.Machine

/-- A request of the caller. -/
inductive Request where
  /-- A command of R76. -/
  | command (i : Instr)
  /-- DISPLAY_STRING (R84, R166). -/
  | text (t : List Char)
  /-- A feature the source leaves without a defined behaviour (R205, U2, U3). -/
  | feature (f : StubbedFeature)
deriving DecidableEq, Repr

/-- The command words a request becomes; a stubbed feature has none and is refused by name (R205). -/
def transcribe (c : Config) : Request → Except Refusal (List CommandWord)
  | .command i => .ok [encode i]
  | .text t => .ok ((displayString c t).map encode)
  | .feature f => .error (.unimplementedFeature f)

/-- The caller makes a request: its words are issued in order, or it is refused by name and nothing is issued (R205). The
mark this sets is in `requestMarked`. -/
def makeRequest (r : Request) (s : State) : Host.Outcome State Fault Refusal :=
  match transcribe s.cfg r with
  | .ok ws => .next (ws.foldl (fun t w => issue w t) s)
  | .error e => .refused e

/-- The state a request leaves, the mark included. DESIGN CHOICE (log 18): R205 and D26 say that a request for a stubbed
feature is refused by name, and not whether that sets the `refused` mark of R38; here it does, and nothing else changes. -/
def requestMarked (r : Request) (s : State) : State :=
  match makeRequest r s with
  | .next t => t
  | .fault f => markFaulted f s
  | .refused e => markRefused e s

end Sys2Proof.Machine
end

