-- ==== Sys2Proof/Machine/Construct.lean ====
section
/-! DEFINITION. Construction, the block's reset, for every configuration (R230 to R232). -/

namespace Sys2Proof.Machine

/-- `dwell` after construction: 2000 (R30). Where the TW-bit register cannot hold 2000 (TW ≤ 10) the spec states no
value: the low TW bits of a free value (log 4). -/
def dwellAtConstruction (c : Config) : Word64 :=
  if dwellDefault < 2 ^ c.timerWidth then BitVec.ofNat 64 dwellDefault
  else timerBits c (Config.dwellTooNarrow c.timerWidth)

/-- The state of R230's steps 2 and 3. No event, no transfer (R231). -/
def constructed (c : Config) : State where
  cfg := c
  seg := []
  cursor := BitVec.ofNat 4 c.cursorInit
  lastTs := BitVec.ofNat 64 c.lastTsInit
  dwell := dwellAtConstruction c
  brightness := BitVec.ofNat 8 c.brightnessInit
  clkEff := min c.clkReq c.clkMax
  load := c.loadInit
  blank := c.blankInit
  sched := .idle
  trace := []
  responses := []
  pending := []
  faulted := none
  refused := none

/-- `Construct(config)` (R230): an invalid configuration is refused and no state exists; a valid one always succeeds
(R232). -/
def construct (c : Config) : Host.Outcome State Fault Refusal :=
  if validConfig c then .next (constructed c) else .refused .invalidConfiguration

end Sys2Proof.Machine
end

