-- ==== Sys2Proof/Safety.lean ====
section
/-! DEFINITION. What holds of every state a run from construction reaches, what a good run is (R243), and the terms claims
are stated in. -/

namespace Sys2Proof.Machine

/-- The invariant of a block with a valid configuration, between commands. -/
structure Inv (s : State) : Prop where
  /-- R12, R230. -/
  cfgValid : validConfig s.cfg = true
  /-- The segment store is in canonical form (log 6). -/
  storeWf : s.seg.wf
  /-- The store has entries at 0..G-1 only (R26, R50). -/
  storeIndex : ∀ e ∈ s.seg, e.1 < s.cfg.grids
  /-- `seg[g][63:S]` = 0 (R26). -/
  storeBits : ∀ e ∈ s.seg, e.2.toNat < 2 ^ s.cfg.segments
  /-- The cursor is always in 0..G-1 (R28). -/
  cursorIn : s.cursor.toNat < s.cfg.grids
  /-- `last_ts` is a TW-bit register (R29). -/
  lastTsFits : s.lastTs.toNat < 2 ^ s.cfg.timerWidth
  /-- `dwell` is a TW-bit register (R30). -/
  dwellFits : s.dwell.toNat < 2 ^ s.cfg.timerWidth
  /-- No command writes `brightness` (R31). -/
  brightnessKept : s.brightness.toNat = s.cfg.brightnessInit
  /-- No command writes CLK_EFF (R32, R147). -/
  clkKept : s.clkEff = min s.cfg.clkReq s.cfg.clkMax
  /-- The core never drives BLANK (R35). -/
  blankKept : s.blank = s.cfg.blankInit
  /-- IDLE between any two commands (R36). -/
  schedIdle : s.sched = .idle
  /-- LOAD is at LOAD_INIT until a frame has been sent and at 1 afterwards (R34). -/
  loadLevel : s.load = (if s.trace = [] then s.cfg.loadInit else true)
  /-- The trace is a sequence of whole frames (R142). -/
  wholeFrames : ∃ ws : List (ChipWord × ChipWord), s.trace = ws.flatMap fun p => frame s.cfg p.1 p.2

/-- A good run: no mark is set (R205, R243). -/
def goodRun (ws : List CommandWord) (s : State) : Bool := unmarked (runWords ws s)

/-- Commands executed one after the other, up to the first stop (R58). -/
def execAll : List Instr → State → Host.Outcome State Fault Refusal
  | [], s => .next s
  | i :: t, s =>
    match exec i s with
    | .next s' => execAll t s'
    | .fault r => .fault r
    | .refused r => .refused r

/-- The frame a scan of grid g sends: the packed words of its entry (R123). -/
def gridFrame (s : State) (g : Nat) : List PinEvent :=
  frame s.cfg (word1 s.cfg g (memRead s g)) (word2 s.cfg g (memRead s g))

/-- Tick times in their true order, each at least `low` and less than `high` after the one before (R129 item 2). -/
def spaced (low high : Nat) : List Nat → Prop
  | a :: b :: t => a + low ≤ b ∧ b < a + high ∧ spaced low high (b :: t)
  | _ => True

/-- How many of a list of commands are TICKs that advance, from the operands alone: a TICK advances when the time since the
last advance, mod 2^TW, reaches the dwell then in force (R120, R121), `now` becomes the time of the last advance (R123), and
SET_DWELL sets the dwell in force (R124). -/
def advanceCount (tw : Nat) : Word64 → Word64 → List Instr → Nat
  | _, _, [] => 0
  | dwell, last, i :: t =>
    match i with
    | .tick now =>
      if (dwell.toNat : Int) ≤ ((now.toNat : Int) - (last.toNat : Int)) % (2 : Int) ^ tw then
        advanceCount tw dwell now t + 1
      else advanceCount tw dwell last t
    | .setDwell d => advanceCount tw d last t
    | .pack _ _ => advanceCount tw dwell last t
    | .transfer _ _ => advanceCount tw dwell last t
    | .getDwell => advanceCount tw dwell last t
    | .clear => advanceCount tw dwell last t
    | .setSegment _ _ _ => advanceCount tw dwell last t
    | .setGrid _ _ => advanceCount tw dwell last t
    | .readGrid _ => advanceCount tw dwell last t
    | .getBrightness => advanceCount tw dwell last t

/-- The dwell a command leaves in force (R124, R127). -/
def dwellAfter (dwell : Word64) : Instr → Word64
  | .setDwell d => d
  | .tick _ => dwell
  | .pack _ _ => dwell
  | .transfer _ _ => dwell
  | .getDwell => dwell
  | .clear => dwell
  | .setSegment _ _ _ => dwell
  | .setGrid _ _ => dwell
  | .readGrid _ => dwell
  | .getBrightness => dwell

/-- The dwell in force after a list of commands: the last one set, or the one before them (R124, R127). -/
def dwellInForce (is : List Instr) (dwell : Word64) : Word64 := is.foldl dwellAfter dwell

/-- The commands that place a response word on the response port (R82). -/
def responds : Instr → Bool
  | .pack _ _ => true
  | .tick _ => false
  | .transfer _ _ => false
  | .setDwell _ => false
  | .getDwell => true
  | .clear => false
  | .setSegment _ _ _ => false
  | .setGrid _ _ => false
  | .readGrid _ => true
  | .getBrightness => true

/-- R77's table read bit by bit: bit i of a word with opcode op must be zero. -/
def mustBeZero (tw op i : Nat) : Prop :=
  match op with
  | 0x1 => 12 ≤ i ∧ i < 64
  | 0x2 => 4 ≤ i ∧ i < 64 ∨ 64 + tw ≤ i
  | 0x3 => 4 ≤ i ∧ i < 64 ∨ 84 ≤ i ∧ i < 96 ∨ 116 ≤ i
  | 0x4 => 4 ≤ i ∧ i < 64 ∨ 64 + tw ≤ i
  | 0x5 => 4 ≤ i
  | 0x6 => 4 ≤ i
  | 0x7 => 21 ≤ i
  | 0x8 => 12 ≤ i ∧ i < 64
  | 0x9 => 12 ≤ i
  | 0xA => 4 ≤ i
  | _ => False

end Sys2Proof.Machine
end

