-- ==== Sys2Proof/Certificates/Slice0/Obligations.lean ====
section
/-! DEFINITION. The statements about the model, for the provers. -/

open Sys2Proof Sys2Proof.Machine

/-! ### The command port (30_encoding.md, Part B) -/

/-- Decoding the word of a well-formed command gives the command back, with every operand, at every timer width
(R75 to R78). -/
def Obligations.DecodeOfEncodeIsTheCommand : Prop :=
  ∀ (tw : Nat) (i : Instr), i.wf tw = true → decode tw (encode i) = .ok i

/-- A word that decodes is the word of the command it decodes to, and that command is well-formed: no two words have one
meaning and no word two (R80). -/
def Obligations.EncodeOfDecodeIsTheWord : Prop :=
  ∀ (tw : Nat) (w : CommandWord) (i : Instr), decode tw w = .ok i → i.wf tw = true ∧ encode i = w

/-- R79, the spec's own decision D3: a word with opcode 0x0 or 0xB to 0xF is refused, the `refused` mark is set, and nothing
else changes. The model's own choices: the word is taken off the list of waiting words (log 7), and a mark already set keeps
its first reason (log 8). -/
def Obligations.ReservedOpcodeIsRefused : Prop :=
  ∀ (s : State) (w : CommandWord) (rest : List CommandWord),
    s.pending = w :: rest → (opField w).toNat = 0x0 ∨ 0xB ≤ (opField w).toNat →
    step s = .refused .reservedOpcode ∧
    stepMarked s = { s with pending := rest, refused := some (s.refused.getD .reservedOpcode) }

/-- R80, the spec's own decision D3: a word with a defined opcode and a must-be-zero bit set is refused, with the mark set and
nothing else changed; a word with every such bit clear has exactly one meaning, which the step executes. The must-be-zero
bits are R77's table, written bit by bit in `mustBeZero`. The model's own choices: in both cases the word is taken off the
list of waiting words (log 7), and a mark already set keeps its first reason (log 8). -/
def Obligations.NonzeroReservedFieldIsRefused : Prop :=
  ∀ (s : State) (w : CommandWord) (rest : List CommandWord),
    s.pending = w :: rest → 0x1 ≤ (opField w).toNat → (opField w).toNat ≤ 0xA →
    ((∃ i, i < 128 ∧ mustBeZero s.cfg.timerWidth (opField w).toNat i ∧ w.getLsbD i = true) →
      step s = .refused .nonzeroReservedField ∧
      stepMarked s = { s with pending := rest, refused := some (s.refused.getD .nonzeroReservedField) }) ∧
    ((∀ i, i < 128 → mustBeZero s.cfg.timerWidth (opField w).toNat i → w.getLsbD i = false) →
      ∃ c, decode s.cfg.timerWidth w = .ok c ∧ c.wf s.cfg.timerWidth = true ∧ encode c = w ∧
        step s = exec c { s with pending := rest })

/-- The rows of spec/opcode_table.json, at TW = 32: a word meets a row's mask and match exactly when it decodes to that
row's command. -/
def Obligations.OpcodeTableRowsMatchTheDecoder : Prop :=
  ∀ w : CommandWord,
    (w &&& 0x0000000000000000FFFFFFFFFFFFF00F#128 = 0x1#128 ↔ ∃ g m, decode 32 w = .ok (.pack g m)) ∧
    (w &&& 0xFFFFFFFF00000000FFFFFFFFFFFFFFFF#128 = 0x2#128 ↔ ∃ now, decode 32 w = .ok (.tick now)) ∧
    (w &&& 0xFFF00000FFF00000FFFFFFFFFFFFFFFF#128 = 0x3#128 ↔ ∃ w1 w2, decode 32 w = .ok (.transfer w1 w2)) ∧
    (w &&& 0xFFFFFFFF00000000FFFFFFFFFFFFFFFF#128 = 0x4#128 ↔ ∃ d, decode 32 w = .ok (.setDwell d)) ∧
    (w &&& 0xFFFFFFFFFFFFFFFFFFFFFFFFFFFFFFFF#128 = 0x5#128 ↔ decode 32 w = .ok .getDwell) ∧
    (w &&& 0xFFFFFFFFFFFFFFFFFFFFFFFFFFFFFFFF#128 = 0x6#128 ↔ decode 32 w = .ok .clear) ∧
    (w &&& 0xFFFFFFFFFFFFFFFFFFFFFFFFFFE0000F#128 = 0x7#128 ↔ ∃ g sg v, decode 32 w = .ok (.setSegment g sg v)) ∧
    (w &&& 0x0000000000000000FFFFFFFFFFFFF00F#128 = 0x8#128 ↔ ∃ g m, decode 32 w = .ok (.setGrid g m)) ∧
    (w &&& 0xFFFFFFFFFFFFFFFFFFFFFFFFFFFFF00F#128 = 0x9#128 ↔ ∃ g, decode 32 w = .ok (.readGrid g)) ∧
    (w &&& 0xFFFFFFFFFFFFFFFFFFFFFFFFFFFFFFFF#128 = 0xA#128 ↔ decode 32 w = .ok .getBrightness)

/-- Words written out from the spec's encodings (95_test_vectors.md) decode to the commands they stand for. -/
def Obligations.WrittenOutWordsDecode : Prop :=
  decode 32 0x00000000000000200000000000000031#128 = .ok (.pack 3 0x20) ∧
  decode 32 0x00000000000007D00000000000000002#128 = .ok (.tick 2000) ∧
  decode 32 0x00012345000ABCDE0000000000000003#128 = .ok (.transfer 0xABCDE 0x12345) ∧
  decode 32 0x00000000000001F40000000000000004#128 = .ok (.setDwell 500) ∧
  decode 32 0x00000000000000000000000000105037#128 = .ok (.setSegment 3 5 true) ∧
  decode 32 0x00000000000001A50000000000000028#128 = .ok (.setGrid 2 0x1A5) ∧
  decode 32 0x00000000000000000000000000000C89#128 = .ok (.readGrid 200) ∧
  decode 64 0x00000001000000000000000000000002#128 = .ok (.tick 0x100000000)

/-- A step decodes the oldest waiting word and executes it, the word being off the command port (R17, R58). The word that
`withFetchWord` places is the one the next step takes. Holding the waiting words in State is the model's own (log 7). -/
def Obligations.StepRunsTheDecodedCommand : Prop :=
  ∀ (s : State) (w : CommandWord) (rest : List CommandWord) (i : Instr),
    decode s.cfg.timerWidth w = .ok i →
    (s.pending = w :: rest → step s = exec i { s with pending := rest }) ∧
    step (s.withFetchWord 128 w.toNat) = exec i s

/-- With no command waiting nothing happens: "Nothing in the block advances without a command" (R130). A step without a
command is the model's own notion (log 7). -/
def Obligations.NothingHappensWithoutACommand : Prop :=
  ∀ s : State, s.pending = [] → step s = .next s ∧ stepMarked s = s

/-- A mark is never cleared (R38): once set it stays, through any number of steps. That it stays with its first reason is
the model's own choice (log 8). -/
def Obligations.MarksAreNeverCleared : Prop :=
  ∀ (s : State) (n : Nat),
    (∀ r, s.faulted = some r → (stepsMarked n s).faulted = some r) ∧
    (∀ r, s.refused = some r → (stepsMarked n s).refused = some r)

/-- The block never halts and has no terminal state (R243): what a step does is the same whichever marks the state carries,
and every waiting word is taken, the one after a refusal or a fault like any other. Holding the waiting words in State is
the model's own (log 7). -/
def Obligations.NoStateIsTerminal : Prop :=
  ∀ (s : State) (f : Option Fault) (r : Option Refusal),
    (∀ t, step s = .next t →
      step { s with faulted := f, refused := r } = .next { t with faulted := f, refused := r }) ∧
    (∀ x, step s = .fault x → step { s with faulted := f, refused := r } = .fault x) ∧
    (∀ x, step s = .refused x → step { s with faulted := f, refused := r } = .refused x) ∧
    (stepMarked s).pending = s.pending.tail ∧ (stepsMarked s.pending.length s).pending = []

/-- Commands issued together are executed one at a time in the order issued (R58), on a port with nothing waiting: running a
list of words is issuing and stepping one word after the other, whatever the words are; for words of commands it is
executing the commands one after the other, stops included; and where no command stops the run is a good one (R243). That
words issued together wait in a list is the model's own (log 7), and so is the state a stop leaves where the spec gives no
further command (log 8). -/
def Obligations.CommandsRunInTheOrderIssued : Prop :=
  ∀ s : State, s.pending = [] →
    (∀ ws : List CommandWord, runWords ws s = ws.foldl (fun t w => stepMarked (issue w t)) s) ∧
    (∀ is : List Instr, (∀ i ∈ is, i.wf s.cfg.timerWidth = true) →
      runWords (is.map encode) s = is.foldl (fun t i => execMarked i t) s ∧
      ∀ t, execAll is s = .next t →
        runWords (is.map encode) s = t ∧ (unmarked s = true → goodRun (is.map encode) s = true))

/-! ### Construction and the invariant -/

/-- R230: construction refuses a configuration outside the ranges, and otherwise gives the reset state: every entry 0, the
parameters' initial values, the clamped clock, no event, no mark. The value 2000 is stated where it fits in the TW-bit
register; for TW at most 10 the register's value is left free (log 4). -/
def Obligations.ConstructionGivesTheResetState : Prop :=
  ∀ c : Config,
    (¬(1 ≤ c.grids ∧ c.grids ≤ 16 ∧ 1 ≤ c.segments ∧ c.segments ≤ 64 ∧ (c.chips = 1 ∨ c.chips = 2) ∧
        c.grids + c.segments ≤ 20 * c.chips ∧ 1 ≤ c.timerWidth ∧ c.timerWidth ≤ 64 ∧ c.cursorInit < c.grids ∧
        c.lastTsInit < 2 ^ c.timerWidth ∧ c.brightnessInit ≤ c.maxBrightness ∧ c.brightnessInit < 2 ^ 8) →
      construct c = .refused .invalidConfiguration) ∧
    ((1 ≤ c.grids ∧ c.grids ≤ 16 ∧ 1 ≤ c.segments ∧ c.segments ≤ 64 ∧ (c.chips = 1 ∨ c.chips = 2) ∧
        c.grids + c.segments ≤ 20 * c.chips ∧ 1 ≤ c.timerWidth ∧ c.timerWidth ≤ 64 ∧ c.cursorInit < c.grids ∧
        c.lastTsInit < 2 ^ c.timerWidth ∧ c.brightnessInit ≤ c.maxBrightness ∧ c.brightnessInit < 2 ^ 8) →
      ∃ s, construct c = .next s ∧ s.cfg = c ∧ (∀ g, memRead s g = 0#64) ∧ s.cursor.toNat = c.cursorInit ∧
        s.lastTs.toNat = c.lastTsInit ∧ (2000 < 2 ^ c.timerWidth → s.dwell.toNat = 2000) ∧
        s.brightness.toNat = c.brightnessInit ∧ s.clkEff = min c.clkReq c.clkMax ∧ s.load = c.loadInit ∧
        s.blank = c.blankInit ∧ s.sched = .idle ∧ s.trace = [] ∧ s.responses = [] ∧ s.pending = [] ∧
        s.faulted = none ∧ s.refused = none)

/-- A block that has been constructed, whatever its configuration, meets the invariant. -/
def Obligations.ConstructionEstablishesTheInvariant : Prop :=
  ∀ (c : Config) (s : State), construct c = .next s → Inv s

/-- The invariant holds at `State.reset`, which is the construction of the specialised variant. The values of that
configuration are the model's choice (log 2, log 3). -/
def Obligations.ResetStateMeetsTheInvariant : Prop :=
  construct Config.specialised = .next State.reset ∧ Inv State.reset

/-- Every step that completes keeps the invariant: the store stays canonical and inside 0..G-1 with bits [63:S] zero
(R26), the cursor in 0..G-1 (R28), the registers in their widths, brightness, clock and BLANK as constructed (R31, R32,
R35), the scheduler IDLE (R36), LOAD high after any frame (R34), the trace made of whole frames (R142). -/
def Obligations.EveryStepKeepsTheInvariant : Prop :=
  ∀ s t : State, Inv s → step s = .next t → Inv t

/-- Every step keeps the invariant, those that end in a refusal or in the fault too, and so does every run of words, good or
not (R243). The state a stop leaves is that of R79, R123 and R144; that the scheduler is IDLE in it is R36 (log 8). -/
def Obligations.EveryMarkedStepKeepsTheInvariant : Prop :=
  ∀ s : State, Inv s → Inv (stepMarked s) ∧ ∀ ws : List CommandWord, Inv (runWords ws s)

/-- A step that gives no next state took a waiting word and is one of three: a refused word, which sets the `refused` mark
(R79, R80); a TRANSFER without its transport, which sets the `faulted` mark (R144); a TICK without its transport whose dwell
has elapsed, which sets it too, with the cursor advanced, `last_ts` not written (R123) and the scheduler IDLE (R36). The
state left is the whole of it: nothing else changes (R204). The model's own choices: the word off the list of waiting words
(log 7), and the marks keeping their first reason and the scheduler's state after the fault (log 8). -/
def Obligations.AStopChangesOnlyThePortAMarkAndAFaultingTicksScan : Prop :=
  ∀ s : State, (∀ t, step s ≠ .next t) → ∃ w rest, s.pending = w :: rest ∧
    ((∃ r, step s = .refused r ∧
        stepMarked s = { s with pending := rest, refused := some (s.refused.getD r) }) ∨
      (∃ w1 w2, decode s.cfg.timerWidth w = .ok (.transfer w1 w2) ∧ s.cfg.transportPresent = false ∧
        step s = .fault .transportUnavailable ∧
        stepMarked s = { s with pending := rest, faulted := some .transportUnavailable }) ∨
      (∃ now, decode s.cfg.timerWidth w = .ok (.tick now) ∧ s.cfg.transportPresent = false ∧
        s.dwell.toNat ≤ (elapsed s now).toNat ∧ step s = .fault .transportUnavailable ∧
        stepMarked s =
          { s with
            pending := rest
            faulted := some .transportUnavailable
            cursor := BitVec.ofNat 4 ((s.cursor.toNat + 1) % s.cfg.grids)
            sched := .idle }))

/-! ### Whole-machine rules -/

/-- No command writes the configuration, `brightness`, CLK_EFF, BLANK, the command port or a mark (R20, R31, R32, R35). -/
def Obligations.NoCommandWritesWhatIsFixed : Prop :=
  ∀ (i : Instr) (s t : State), exec i s = .next t →
    t.cfg = s.cfg ∧ t.brightness = s.brightness ∧ t.clkEff = s.clkEff ∧ t.blank = s.blank ∧
    t.pending = s.pending ∧ t.faulted = s.faulted ∧ t.refused = s.refused

/-- Each piece of state has only the writers the spec names: the store CLEAR, SET_SEGMENT and SET_GRID (R27); `cursor` and
`last_ts` TICK (R28, R29); `dwell` SET_DWELL (R30); the trace and LOAD the transfer body, so TRANSFER and TICK (R33,
R34, R54). -/
def Obligations.EachPieceOfStateHasItsWriters : Prop :=
  ∀ (i : Instr) (s t : State), exec i s = .next t →
    (i ≠ .clear → (∀ g sg v, i ≠ .setSegment g sg v) → (∀ g m, i ≠ .setGrid g m) → t.seg = s.seg) ∧
    ((∀ now, i ≠ .tick now) → t.cursor = s.cursor ∧ t.lastTs = s.lastTs ∧ t.sched = s.sched) ∧
    ((∀ d, i ≠ .setDwell d) → t.dwell = s.dwell) ∧
    ((∀ now, i ≠ .tick now) → (∀ w1 w2, i ≠ .transfer w1 w2) → t.trace = s.trace ∧ t.load = s.load)

/-- Four commands place one response word on the response port and change nothing else; every other command places none
(R54, R82). -/
def Obligations.FourCommandsRespondAndOnlyRespond : Prop :=
  ∀ (i : Instr) (s : State),
    (responds i = true → ∃ v, exec i s = .next { s with responses := s.responses ++ [v] }) ∧
    (responds i = false → ∀ t, exec i s = .next t → t.responses = s.responses)

/-- With the transport there, every command completes, in every state and with every operand; the one stop of the machine's
meanings is the fault of a transfer without its transport, and no meaning refuses (R144, R200, R205). -/
def Obligations.EveryCommandCompletes : Prop :=
  ∀ (i : Instr) (s : State),
    (s.cfg.transportPresent = true → ∃ t, exec i s = .next t) ∧
    ((∀ now, i ≠ .tick now) → (∀ w1 w2, i ≠ .transfer w1 w2) → ∃ t, exec i s = .next t) ∧
    (∀ r, exec i s = .fault r → r = .transportUnavailable ∧ s.cfg.transportPresent = false) ∧
    (∀ r, exec i s ≠ .refused r)

/-- The trace only grows, and by one whole frame at most: no event falls inside a frame and no frame is sent in part
(R33, R142). -/
def Obligations.TheTraceGrowsByWholeFrames : Prop :=
  ∀ (i : Instr) (s t : State), exec i s = .next t →
    t.trace = s.trace ∨ ∃ w1 w2, t.trace = s.trace ++ frame s.cfg w1 w2

/-! ### The Bit Packer (40_bit_packer.md) -/

/-- R22 to R24, and R12's bound on S: MASK1 has all 20 bits set (R23), MASK2 only its low max(0, G + S - 20) (R24; that it is
0 for G + S at most 20 is the spec's own decision D8, log 16), the required chips are at most those configured (R22), and S
is at most 39 (which R12 marks as derived). -/
def Obligations.DerivedConstants : Prop :=
  ∀ c : Config, validConfig c = true →
    (∀ i, i < 20 → (mask2 c).getLsbD i = decide (i < c.grids + c.segments - 20)) ∧
    (∀ i, i < 20 → mask1.getLsbD i = true) ∧
    requiredChips c ≤ c.chips ∧ 20 * (requiredChips c - 1) < c.grids + c.segments ∧
    c.grids + c.segments ≤ 20 * requiredChips c ∧ c.segments ≤ 39

/-- R70: the combined word has bit g for grid g < G, bit G + i for segment i of the mask, and nothing at or above G + S. An
out-of-range grid sets no grid-select bit and its segments are still packed (R106, the spec's own decision D10, log 16). -/
def Obligations.CombinedWordLayout : Prop :=
  ∀ (c : Config) (g : Nat) (m : Word64) (i : Nat), validConfig c = true → i < 40 →
    (i < c.grids → (combine c g m).getLsbD i = (decide (g < c.grids) && decide (i = g))) ∧
    (c.grids ≤ i → i < c.grids + c.segments → (combine c g m).getLsbD i = m.getLsbD (i - c.grids)) ∧
    (c.grids + c.segments ≤ i → (combine c g m).getLsbD i = false)

/-- R25, R103, R104: word1 is bits 0 to 19 of the combined word and word2 the bits from 20 up to G + S, zero above. -/
def Obligations.ChipWordsSplitTheCombinedWord : Prop :=
  ∀ (c : Config) (g : Nat) (m : Word64) (i : Nat), validConfig c = true → i < 20 →
    (word1 c g m).getLsbD i = (combine c g m).getLsbD i ∧
    (20 + i < c.grids + c.segments → (word2 c g m).getLsbD i = (combine c g m).getLsbD (20 + i)) ∧
    (c.grids + c.segments ≤ 20 + i → (word2 c g m).getLsbD i = false)

/-- R108: PACK completes in every state with one response, word1 in bits 19:0, word2 in bits 51:32 and 0 elsewhere, and
changes nothing else. -/
def Obligations.PackResponds : Prop :=
  ∀ (s : State) (g : BitVec 8) (m : Word64),
    ∃ r, exec (.pack g m) s = .next { s with responses := s.responses ++ [r] } ∧
      r.extractLsb' 0 20 = word1 s.cfg g.toNat m ∧ r.extractLsb' 32 20 = word2 s.cfg g.toNat m ∧
      r.extractLsb' 20 12 = 0#12 ∧ r.extractLsb' 52 12 = 0#12

/-- R107: PACK's response depends on g, the mask, G and S alone: two blocks with the same G and S answer alike, whatever
else their states hold. -/
def Obligations.PackIsPure : Prop :=
  ∀ (s1 s2 : State) (g : BitVec 8) (m : Word64),
    s1.cfg.grids = s2.cfg.grids → s1.cfg.segments = s2.cfg.segments →
    ∃ r, exec (.pack g m) s1 = .next { s1 with responses := s1.responses ++ [r] } ∧
      exec (.pack g m) s2 = .next { s2 with responses := s2.responses ++ [r] }

/-- The laws of the packer (R109 items 1, 2, 5, 6 and 7) for every valid configuration. -/
def Obligations.PackerLaws : Prop :=
  ∀ (c : Config) (g : Nat) (m : Word64), validConfig c = true →
    (g < c.grids → ∀ i, i < c.grids → ((combine c g m).getLsbD i = true ↔ i = g)) ∧
    (c.grids ≤ g → ∀ i, i < c.grids → (combine c g m).getLsbD i = false) ∧
    (∀ i, c.grids + c.segments - 20 ≤ i → (word2 c g m).getLsbD i = false) ∧
    (∀ i, c.grids + c.segments ≤ i → (word1 c g m).getLsbD i = false) ∧
    (∀ x : ChipWord, (x &&& mask2 c) &&& mask2 c = x &&& mask2 c ∧ (x &&& mask1) &&& mask1 = x &&& mask1) ∧
    word1 c g m = (combine c g m).extractLsb' 0 20 ∧ word2 c g m = (combine c g m).extractLsb' 20 20 ∧
    (g < c.grids → ∀ i, i < c.segments →
      (c.grids + i < 20 → (word1 c g m).getLsbD (c.grids + i) = m.getLsbD i) ∧
      (20 ≤ c.grids + i → (word2 c g m).getLsbD (c.grids + i - 20) = m.getLsbD i))

/-! ### The Scan Scheduler (41_scan_scheduler.md) -/

/-- R120: the elapsed time is the difference of the two timer values taken mod 2^TW, unsigned. -/
def Obligations.ElapsedTimeWrapsAround : Prop :=
  ∀ (s : State) (now : Word64), s.cfg.timerWidth ≤ 64 →
    ((elapsed s now).toNat : Int) = ((now.toNat : Int) - (s.lastTs.toNat : Int)) % (2 : Int) ^ s.cfg.timerWidth

/-- R121, the waiting side: a TICK before the dwell period has elapsed changes nothing, transport or not. -/
def Obligations.TickBeforeTheDwellDoesNothing : Prop :=
  ∀ (s : State) (now : Word64), (elapsed s now).toNat < s.dwell.toNat → exec (.tick now) s = .next s

/-- R121, R123: a TICK before the dwell period has elapsed does nothing; once it has elapsed, a TICK moves the cursor to
the next grid (R122), sends the packed words of that grid's entry as one frame, leaves LOAD high, records now and leaves
the scheduler IDLE, with nothing else changed; without the transport it ends in the fault instead (R144, the spec's own
decision D20, log 16), with the cursor advanced and `last_ts` not written. That execMarked holds the state a fault leaves is
the model's own (log 8). -/
def Obligations.TickScansTheNextGridAfterTheDwell : Prop :=
  ∀ (s : State) (now : Word64), Inv s → now.toNat < 2 ^ s.cfg.timerWidth →
    ((elapsed s now).toNat < s.dwell.toNat → exec (.tick now) s = .next s) ∧
    (s.dwell.toNat ≤ (elapsed s now).toNat → s.cfg.transportPresent = true →
      exec (.tick now) s = .next
        { s with
          cursor := BitVec.ofNat 4 ((s.cursor.toNat + 1) % s.cfg.grids)
          trace := s.trace ++ gridFrame s ((s.cursor.toNat + 1) % s.cfg.grids)
          load := true
          lastTs := now }) ∧
    (s.dwell.toNat ≤ (elapsed s now).toNat → s.cfg.transportPresent = false →
      exec (.tick now) s = .fault .transportUnavailable ∧
      (execMarked (.tick now) s).cursor.toNat = (s.cursor.toNat + 1) % s.cfg.grids ∧
      (execMarked (.tick now) s).lastTs = s.lastTs ∧ (execMarked (.tick now) s).trace = s.trace)

/-- R144 in a TICK: without the transport a TICK that advances ends in the fault, before any event; the cursor has advanced
and `last_ts` is not written (R123). That the fault leaves the scheduler IDLE is R36 as the model reads it (log 8). -/
def Obligations.TickWithoutTransportFaults : Prop :=
  ∀ (s : State) (now : Word64), s.cfg.transportPresent = false → s.dwell.toNat ≤ (elapsed s now).toNat →
    exec (.tick now) s = .fault .transportUnavailable ∧
    execMarked (.tick now) s =
      { s with
        cursor := BitVec.ofNat 4 ((s.cursor.toNat + 1) % s.cfg.grids)
        sched := .idle
        faulted := some .transportUnavailable }

/-- R122: an advancing TICK takes the cursor c to (c + 1) mod G, which is again below G, and for G = 1 to 0 (which R122 marks
as derived from itself and R123). -/
def Obligations.CursorAdvancesModuloG : Prop :=
  ∀ (s t : State) (now : Word64), Inv s → s.dwell.toNat ≤ (elapsed s now).toNat → exec (.tick now) s = .next t →
    t.cursor.toNat = (s.cursor.toNat + 1) % s.cfg.grids ∧ t.cursor.toNat < s.cfg.grids ∧
    (s.cfg.grids = 1 → t.cursor.toNat = 0)

/-- R127: SET_DWELL completes in every state and writes `dwell` alone, for every TW-bit value, 0 included. -/
def Obligations.SetDwellWritesDwell : Prop :=
  ∀ (s : State) (d : Word64), d.toNat < 2 ^ s.cfg.timerWidth → exec (.setDwell d) s = .next { s with dwell := d }

/-- R128: GET_DWELL completes in every state, responds with zext_64(dwell) and changes nothing else. -/
def Obligations.GetDwellResponds : Prop :=
  ∀ s : State, exec .getDwell s = .next { s with responses := s.responses ++ [s.dwell] }

/-- R124: SET_DWELL d changes only `dwell`, and the next TICK is measured against d, from the last advance as before: it does
nothing before d has elapsed since `last_ts`, and moves the cursor once it has (which R124 marks as derived from R121 and
R127). -/
def Obligations.NewDwellHoldsFromTheNextTick : Prop :=
  ∀ (s s1 : State) (d now : Word64), Inv s → s.cfg.transportPresent = true → d.toNat < 2 ^ s.cfg.timerWidth →
    exec (.setDwell d) s = .next s1 →
    s1 = { s with dwell := d } ∧
    ((elapsed s now).toNat < d.toNat → exec (.tick now) s1 = .next s1) ∧
    (d.toNat ≤ (elapsed s now).toNat → ∃ t, exec (.tick now) s1 = .next t ∧
      t.cursor.toNat = (s.cursor.toNat + 1) % s.cfg.grids ∧
      t.trace = s.trace ++ gridFrame s ((s.cursor.toNat + 1) % s.cfg.grids))

/-- R125, R129 item 1: any sequence of TICKs scans the grids after the cursor in ascending order with wrap-around, none
skipped and none twice: the trace grows by exactly the frames of grids c+1, c+2, ..., c+k mod G, and the cursor ends on
the last of them, where k is the number of TICKs at which the time since the last advance, mod 2^TW, reaches the dwell
(`advanceCount`, R120 and R121 on the operands alone). -/
def Obligations.TicksScanTheGridsInRotation : Prop :=
  ∀ (s : State) (nows : List Word64), Inv s → s.cfg.transportPresent = true →
    ∃ t k, execAll (nows.map .tick) s = .next t ∧
      k = advanceCount s.cfg.timerWidth s.dwell s.lastTs (nows.map .tick) ∧ t.seg = s.seg ∧ t.dwell = s.dwell ∧
      t.cursor.toNat = (s.cursor.toNat + k) % s.cfg.grids ∧
      t.trace = s.trace ++ (List.range k).flatMap fun j => gridFrame s ((s.cursor.toNat + 1 + j) % s.cfg.grids)

/-- R129 items 1 and 2, from a TICK that advances on: TICKs at true times whose gaps are at least dwell and less than 2^TW
all advance, so G of them scan every grid exactly once. The times enter the block mod 2^TW (R130). -/
def Obligations.TicksADwellApartAllAdvance : Prop :=
  ∀ (s : State) (t0 : Nat) (ts : List Nat), Inv s → s.cfg.transportPresent = true →
    spaced s.dwell.toNat (2 ^ s.cfg.timerWidth) (t0 :: ts) →
    s.dwell.toNat ≤ (elapsed s (BitVec.ofNat 64 (t0 % 2 ^ s.cfg.timerWidth))).toNat →
    ∃ t, execAll ((t0 :: ts).map fun x => .tick (BitVec.ofNat 64 (x % 2 ^ s.cfg.timerWidth))) s = .next t ∧
      t.cursor.toNat = (s.cursor.toNat + (ts.length + 1)) % s.cfg.grids ∧
      t.trace = s.trace ++
        (List.range (ts.length + 1)).flatMap fun j => gridFrame s ((s.cursor.toNat + 1 + j) % s.cfg.grids)

/-- R129 item 4: between two consecutive advances, the first at `now1` and the next at `now2`, at least the dwell in force at
the later one elapses, measured mod 2^TW. Any commands may stand between the two: TICKs that wait, content commands,
TRANSFERs, and any number of SET_DWELLs, the last of which gives the dwell in force. -/
def Obligations.AdvancesAreADwellApart : Prop :=
  ∀ (s s1 s2 t : State) (now1 now2 : Word64) (is : List Instr), validConfig s.cfg = true →
    (∀ i ∈ is, i.wf s.cfg.timerWidth = true) →
    exec (.tick now1) s = .next s1 → s1.trace ≠ s.trace →
    execAll is s1 = .next s2 → advanceCount s.cfg.timerWidth s.dwell now1 is = 0 →
    exec (.tick now2) s2 = .next t → t.trace ≠ s2.trace →
    s2.dwell = dwellInForce is s.dwell ∧
    ((dwellInForce is s.dwell).toNat : Int) ≤
      ((now2.toNat : Int) - (now1.toNat : Int)) % (2 : Int) ^ s.cfg.timerWidth

/-! ### The Transfer Driver (42_transfer_driver.md) -/

/-- R141: with the transport there a transfer drives LOAD to 0, shifts word1 as three bytes, most significant first, then
word2 the same way when NCHIP = 2, drives LOAD to 1, and changes nothing else; without it, it ends in the fault. The words
are sent as given (R146); the bytes are written here as bit fields of the words. That word2 is not shifted for NCHIP = 1 is
the spec's own decision D9, and the fault its decision D20 (log 16). -/
def Obligations.TransferSendsTheFrame : Prop :=
  ∀ (s : State) (w1 w2 : ChipWord),
    (s.cfg.transportPresent = true → s.cfg.chips = 2 → exec (.transfer w1 w2) s = .next
      { s with
        load := true
        trace := s.trace ++
          [.loadSet false, .shiftByte (0#4 ++ w1.extractLsb' 16 4), .shiftByte (w1.extractLsb' 8 8),
           .shiftByte (w1.extractLsb' 0 8), .shiftByte (0#4 ++ w2.extractLsb' 16 4), .shiftByte (w2.extractLsb' 8 8),
           .shiftByte (w2.extractLsb' 0 8), .loadSet true] }) ∧
    (s.cfg.transportPresent = true → s.cfg.chips ≠ 2 → exec (.transfer w1 w2) s = .next
      { s with
        load := true
        trace := s.trace ++
          [.loadSet false, .shiftByte (0#4 ++ w1.extractLsb' 16 4), .shiftByte (w1.extractLsb' 8 8),
           .shiftByte (w1.extractLsb' 0 8), .loadSet true] }) ∧
    (s.cfg.transportPresent = false → exec (.transfer w1 w2) s = .fault .transportUnavailable)

/-- R144: without the transport a transfer ends in the fault, before any event and with nothing changed but the mark. -/
def Obligations.TransferWithoutTransportFaults : Prop :=
  ∀ (s : State) (w1 w2 : ChipWord), s.cfg.transportPresent = false →
    exec (.transfer w1 w2) s = .fault .transportUnavailable ∧
    execMarked (.transfer w1 w2) s = { s with faulted := some .transportUnavailable }

/-- R74: the serial bits of a frame are, for each word sent, four zero bits and then the word's bits from bit 19 down to
bit 0: 24 bits a word, 48 bits a frame for two chips (which R74 marks as derived from R73 and itself). That one chip gets
one word is the spec's own decision D9 (log 16). -/
def Obligations.SerialBitsOfAFrame : Prop :=
  ∀ (c : Config) (w1 w2 : ChipWord),
    (c.chips = 2 → serialBits (frame c w1 w2) =
      List.replicate 4 false ++ (List.range 20).map (fun i => w1.getLsbD (19 - i)) ++
      (List.replicate 4 false ++ (List.range 20).map fun i => w2.getLsbD (19 - i))) ∧
    (c.chips ≠ 2 → serialBits (frame c w1 w2) =
      List.replicate 4 false ++ (List.range 20).map fun i => w1.getLsbD (19 - i))

/-- R82: PACK's response has the layout of TRANSFER's D field, so a TRANSFER word with that response as D sends the packed
words. -/
def Obligations.PackFeedsTransfer : Prop :=
  ∀ (s t : State) (g : BitVec 8) (m : Word64) (tw : Nat), exec (.pack g m) s = .next t →
    ∃ r, t.responses = s.responses ++ [r] ∧
      decode tw (layOut 0x3#4 0#8 0#8 false r) = .ok (.transfer (word1 s.cfg g.toNat m) (word2 s.cfg g.toNat m))

/-! ### Display content (43_display_content.md) -/

/-- R160: CLEAR completes; every entry of 0..G-1 reads 0 afterwards, any other index reads as before, nothing but the store
changes, and a second CLEAR changes nothing. -/
def Obligations.ClearZeroesEveryEntry : Prop :=
  ∀ s : State, s.seg.wf → ∃ t, exec .clear s = .next t ∧ t = { s with seg := t.seg } ∧
    (∀ g, g < s.cfg.grids → memRead t g = 0#64) ∧ (∀ g, s.cfg.grids ≤ g → memRead t g = memRead s g) ∧
    exec .clear t = .next t

/-- R161: SET_SEGMENT with both indices in range changes bit s of entry g to v and no other bit of any entry; with either
out of range it changes nothing. -/
def Obligations.SetSegmentChangesOneBit : Prop :=
  ∀ (s : State) (g sg : BitVec 8) (v : Bool), validConfig s.cfg = true → s.seg.wf →
    (g.toNat < s.cfg.grids → sg.toNat < s.cfg.segments →
      ∃ t, exec (.setSegment g sg v) s = .next t ∧ t = { s with seg := t.seg } ∧
        (∀ j, j < 64 → (memRead t g.toNat).getLsbD j = if j = sg.toNat then v else (memRead s g.toNat).getLsbD j) ∧
        (∀ k, k ≠ g.toNat → memRead t k = memRead s k)) ∧
    (s.cfg.grids ≤ g.toNat ∨ s.cfg.segments ≤ sg.toNat → exec (.setSegment g sg v) s = .next s)

/-- R162: SET_GRID with g in range stores the mask's bits below S, zero above, in entry g alone; out of range it changes
nothing. -/
def Obligations.SetGridReplacesOneEntry : Prop :=
  ∀ (s : State) (g : BitVec 8) (m : Word64), s.seg.wf →
    (g.toNat < s.cfg.grids →
      ∃ t, exec (.setGrid g m) s = .next t ∧ t = { s with seg := t.seg } ∧
        (∀ j, j < 64 → (memRead t g.toNat).getLsbD j = (decide (j < s.cfg.segments) && m.getLsbD j)) ∧
        (∀ k, k ≠ g.toNat → memRead t k = memRead s k)) ∧
    (s.cfg.grids ≤ g.toNat → exec (.setGrid g m) s = .next s)

/-- R163: READ_GRID responds with the entry, whose bits [63:S] are zero, or with 0 for an index out of range, and changes
nothing else. -/
def Obligations.ReadGridResponds : Prop :=
  ∀ (s : State) (g : BitVec 8), Inv s →
    (g.toNat < s.cfg.grids →
      exec (.readGrid g) s = .next { s with responses := s.responses ++ [memRead s g.toNat] } ∧
      (memRead s g.toNat).toNat < 2 ^ s.cfg.segments) ∧
    (s.cfg.grids ≤ g.toNat → exec (.readGrid g) s = .next { s with responses := s.responses ++ [0#64] })

/-- R164: GET_BRIGHTNESS responds with zext_64(brightness), which is the value the register had at construction, and changes
nothing else. -/
def Obligations.GetBrightnessResponds : Prop :=
  ∀ s : State, Inv s → ∃ r, exec .getBrightness s = .next { s with responses := s.responses ++ [r] } ∧
    r.toNat = s.brightness.toNat ∧ r.toNat = s.cfg.brightnessInit

/-- R109 item 4: after CLEAR the packed words of any grid's entry carry no segment bit, only the grid-select bit. -/
def Obligations.AfterClearNoSegmentIsPacked : Prop :=
  ∀ (s t : State) (g : Nat), Inv s → exec .clear s = .next t → g < s.cfg.grids →
    word1 s.cfg g (memRead t g) = 1#20 <<< g ∧ word2 s.cfg g (memRead t g) = 0#20

/-- R166: executing the expansion of DISPLAY_STRING completes and leaves in every entry i of 0..G-1 the pattern of the
string's character i, or of a space past its end, without the bits at or above S; nothing but the store changes. That
character i goes to grid i is the spec's own decision (D23). -/
def Obligations.DisplayStringFillsTheStore : Prop :=
  ∀ (s : State) (txt : List Char), Inv s →
    ∃ t, execAll (displayString s.cfg txt) s = .next t ∧ t = { s with seg := t.seg } ∧
      ∀ i, i < s.cfg.grids →
        memRead t i = segmentBits s.cfg (fontPattern s.cfg.font (if h : i < txt.length then txt[i] else ' '))

/-- R165: the font folds case, and a character without a pattern has the blank one. Folding is that of ASCII (log 11). -/
def Obligations.FontFoldsCaseAndIsBlankElsewhere : Prop :=
  ∀ (f : FontTable) (c : Char),
    fontPattern f c = fontPattern f c.toUpper ∧ hasPattern f c = hasPattern f c.toUpper ∧
    (hasPattern f c = false → fontPattern f c = 0#64)

/-! ### The caller -/

/-- R205: a request for a stubbed feature is refused by name; a command and DISPLAY_STRING put their words on the command
port, in order, and change nothing else (R84). That the words go behind those already waiting on the port is the model's own
choice (log 7), and so is that a refused request sets the `refused` mark (log 18). -/
def Obligations.RequestsAreIssuedOrRefused : Prop :=
  ∀ s : State,
    (∀ f, makeRequest (.feature f) s = .refused (.unimplementedFeature f) ∧
      requestMarked (.feature f) s = { s with refused := some (s.refused.getD (.unimplementedFeature f)) }) ∧
    (∀ i, makeRequest (.command i) s = .next { s with pending := s.pending ++ [encode i] }) ∧
    (∀ txt, makeRequest (.text txt) s =
      .next { s with pending := s.pending ++ (displayString s.cfg txt).map encode }) ∧
    (∀ txt, (displayString s.cfg txt).length = s.cfg.grids)

/-- R83: what the assembler gives is a well-formed command, for every mnemonic and operands; an operand outside its field gives
an assembly error and no word, for every command that has operands: a grid or segment index above 255, an on/off operand
above 1, a mask of more than 64 bits, a time or dwell of more than TW bits, a chip word of more than 20; and
`SET_SEGMENT 3, 5, 1` assembles to the word R83 writes out. -/
def Obligations.AssemblerChecksItsOperands : Prop :=
  (∀ (tw : Nat) (mn : List Char) (ops : List Nat) (i : Instr), assemble tw mn ops = .ok i → i.wf tw = true) ∧
  (∀ (tw g s v : Nat), 255 < g ∨ 255 < s ∨ 1 < v →
    assemble tw "SET_SEGMENT".toList [g, s, v] = .error .operandRange) ∧
  (∀ (tw g mask : Nat), 255 < g ∨ 2 ^ 64 ≤ mask →
    assemble tw "PACK".toList [g, mask] = .error .operandRange ∧
    assemble tw "SET_GRID".toList [g, mask] = .error .operandRange) ∧
  (∀ (tw g : Nat), 255 < g → assemble tw "READ_GRID".toList [g] = .error .operandRange) ∧
  (∀ (tw w1 w2 : Nat), 2 ^ 20 ≤ w1 ∨ 2 ^ 20 ≤ w2 → assemble tw "TRANSFER".toList [w1, w2] = .error .operandRange) ∧
  (∀ (tw n : Nat), 2 ^ tw ≤ n →
    assemble tw "TICK".toList [n] = .error .operandRange ∧ assemble tw "SET_DWELL".toList [n] = .error .operandRange) ∧
  (assembleLine Config.specialised "SET_SEGMENT 3, 5, 1".toList).map (fun is => is.map encode)
    = .ok [0x00000000000000000000000000105037#128]

/-- R63: blocks side by side share no state: a step of block k is that block's own step and leaves every other block as it
was. -/
def Obligations.BoardsShareNoState : Prop :=
  ∀ (bs : Boards) (k : Nat),
    (∀ b b', bs[k]? = some b → step b = .next b' → stepBoard k bs = .next (bs.set k b')) ∧
    (∀ bs', stepBoard k bs = .next bs' → bs'.length = bs.length ∧ ∀ j, j ≠ k → bs'[j]? = bs[j]?)
end

