-- ==== Sys2Proof/Laws/Decode.lean ====
section
/-! SUPPORT. The fields of a laid-out word, and a word from its fields (R75). -/

namespace Sys2Proof

/-- A laid-out word, bit by bit. -/
theorem layOut_getLsbD (op : BitVec 4) (a b : BitVec 8) (v : Bool) (d : Word64) (i : Nat) :
    (layOut op a b v d).getLsbD i =
      if i < 4 then op.getLsbD i
      else if i < 12 then a.getLsbD (i - 4)
      else if i < 20 then b.getLsbD (i - 12)
      else if i < 21 then v
      else if i < 64 then false
      else d.getLsbD (i - 64) := by
  unfold layOut
  simp only [BitVec.getLsbD_append, BitVec.getLsbD_zero, BitVec.getLsbD_ofBool]
  split_ifs <;> first | omega | simp_all
  all_goals omega

theorem opField_layOut (op : BitVec 4) (a b : BitVec 8) (v : Bool) (d : Word64) : opField (layOut op a b v d) = op := by
  apply BitVec.eq_of_getLsbD_eq
  intro i hi
  simp [opField, layOut_getLsbD, hi]

theorem aField_layOut (op : BitVec 4) (a b : BitVec 8) (v : Bool) (d : Word64) : aField (layOut op a b v d) = a := by
  apply BitVec.eq_of_getLsbD_eq
  intro i hi
  simp [aField, layOut_getLsbD, hi, show 4 + i < 12 by omega]

theorem bField_layOut (op : BitVec 4) (a b : BitVec 8) (v : Bool) (d : Word64) : bField (layOut op a b v d) = b := by
  apply BitVec.eq_of_getLsbD_eq
  intro i hi
  simp [bField, layOut_getLsbD, hi, show ¬12 + i < 4 by omega, show 12 + i < 20 by omega]

theorem vField_layOut (op : BitVec 4) (a b : BitVec 8) (v : Bool) (d : Word64) : vField (layOut op a b v d) = v := by
  rw [vField, layOut_getLsbD]
  rfl

theorem zField_layOut (op : BitVec 4) (a b : BitVec 8) (v : Bool) (d : Word64) : zField (layOut op a b v d) = 0 := by
  apply BitVec.eq_of_getLsbD_eq
  intro i hi
  simp [zField, layOut_getLsbD, show ¬21 + i < 4 by omega, show ¬21 + i < 12 by omega, show ¬21 + i < 20 by omega,
    show 21 + i < 64 by omega]

theorem dField_layOut (op : BitVec 4) (a b : BitVec 8) (v : Bool) (d : Word64) : dField (layOut op a b v d) = d := by
  apply BitVec.eq_of_getLsbD_eq
  intro i hi
  simp [dField, layOut_getLsbD, hi, show ¬64 + i < 4 by omega, show ¬64 + i < 12 by omega, show ¬64 + i < 20 by omega,
    show ¬64 + i < 21 by omega]

/-- A word whose field Z is zero is laid out from its other fields. -/
theorem layOut_fields {w : CommandWord} (hz : zField w = 0) :
    layOut (opField w) (aField w) (bField w) (vField w) (dField w) = w := by
  apply BitVec.eq_of_getLsbD_eq
  intro i hi
  rw [layOut_getLsbD]
  split_ifs with h4 h12 h20 h21 h64
  · simp [opField, h4]
  · simp [aField, show i - 4 < 8 by omega, show 4 + (i - 4) = i by omega]
  · simp [bField, show i - 12 < 8 by omega, show 12 + (i - 12) = i by omega]
  · rw [vField, show i = 20 by omega]
  · have := congrArg (fun z : BitVec 43 => z.getLsbD (i - 21)) hz
    simpa [zField, show i - 21 < 43 by omega, show 21 + (i - 21) = i by omega] using this.symm
  · simp [dField, show i - 64 < 64 by omega, show 64 + (i - 64) = i by omega]

/-- A checked command is the command, and its must-be-zero bits are zero. -/
theorem checked_ok {z : Bool} {i j : Instr} : checked z i = .ok j ↔ z = true ∧ i = j := by
  cases z <;> simp [checked]

theorem checked_error {z : Bool} {i : Instr} {e : DecodeError} :
    checked z i = .error e ↔ z = false ∧ e = .nonzeroReservedField := by
  cases z <;> simp [checked, eq_comm]

end Sys2Proof
end

