-- ==== Sys2Proof/Laws/State.lean ====
section
/-! SUPPORT. One lemma per field per update of State: what an operation writes and that it writes nothing else. -/

namespace Sys2Proof.Machine

variable (s : State)

/-! `memWrite` writes the segment store only (R50). -/

@[simp] theorem memWrite_cfg (g : Nat) (v : Word64) : (memWrite g v s).cfg = s.cfg := rfl
@[simp] theorem memWrite_seg (g : Nat) (v : Word64) : (memWrite g v s).seg = s.seg.write g v := rfl
@[simp] theorem memWrite_cursor (g : Nat) (v : Word64) : (memWrite g v s).cursor = s.cursor := rfl
@[simp] theorem memWrite_lastTs (g : Nat) (v : Word64) : (memWrite g v s).lastTs = s.lastTs := rfl
@[simp] theorem memWrite_dwell (g : Nat) (v : Word64) : (memWrite g v s).dwell = s.dwell := rfl
@[simp] theorem memWrite_brightness (g : Nat) (v : Word64) : (memWrite g v s).brightness = s.brightness := rfl
@[simp] theorem memWrite_clkEff (g : Nat) (v : Word64) : (memWrite g v s).clkEff = s.clkEff := rfl
@[simp] theorem memWrite_load (g : Nat) (v : Word64) : (memWrite g v s).load = s.load := rfl
@[simp] theorem memWrite_blank (g : Nat) (v : Word64) : (memWrite g v s).blank = s.blank := rfl
@[simp] theorem memWrite_sched (g : Nat) (v : Word64) : (memWrite g v s).sched = s.sched := rfl
@[simp] theorem memWrite_trace (g : Nat) (v : Word64) : (memWrite g v s).trace = s.trace := rfl
@[simp] theorem memWrite_responses (g : Nat) (v : Word64) : (memWrite g v s).responses = s.responses := rfl
@[simp] theorem memWrite_pending (g : Nat) (v : Word64) : (memWrite g v s).pending = s.pending := rfl
@[simp] theorem memWrite_faulted (g : Nat) (v : Word64) : (memWrite g v s).faulted = s.faulted := rfl
@[simp] theorem memWrite_refused (g : Nat) (v : Word64) : (memWrite g v s).refused = s.refused := rfl

/-! `advanceCursor` writes the cursor only (R122). -/

@[simp] theorem advanceCursor_cfg : (advanceCursor s).cfg = s.cfg := rfl
@[simp] theorem advanceCursor_seg : (advanceCursor s).seg = s.seg := rfl
@[simp] theorem advanceCursor_cursor : (advanceCursor s).cursor = BitVec.ofNat 4 ((s.cursor.toNat + 1) % s.cfg.grids) := rfl
@[simp] theorem advanceCursor_lastTs : (advanceCursor s).lastTs = s.lastTs := rfl
@[simp] theorem advanceCursor_dwell : (advanceCursor s).dwell = s.dwell := rfl
@[simp] theorem advanceCursor_brightness : (advanceCursor s).brightness = s.brightness := rfl
@[simp] theorem advanceCursor_clkEff : (advanceCursor s).clkEff = s.clkEff := rfl
@[simp] theorem advanceCursor_load : (advanceCursor s).load = s.load := rfl
@[simp] theorem advanceCursor_blank : (advanceCursor s).blank = s.blank := rfl
@[simp] theorem advanceCursor_sched : (advanceCursor s).sched = s.sched := rfl
@[simp] theorem advanceCursor_trace : (advanceCursor s).trace = s.trace := rfl
@[simp] theorem advanceCursor_responses : (advanceCursor s).responses = s.responses := rfl
@[simp] theorem advanceCursor_pending : (advanceCursor s).pending = s.pending := rfl
@[simp] theorem advanceCursor_faulted : (advanceCursor s).faulted = s.faulted := rfl
@[simp] theorem advanceCursor_refused : (advanceCursor s).refused = s.refused := rfl

/-! `setLastTs` writes last_ts only (R123). -/

@[simp] theorem setLastTs_cfg (now : Word64) : (setLastTs now s).cfg = s.cfg := rfl
@[simp] theorem setLastTs_seg (now : Word64) : (setLastTs now s).seg = s.seg := rfl
@[simp] theorem setLastTs_cursor (now : Word64) : (setLastTs now s).cursor = s.cursor := rfl
@[simp] theorem setLastTs_lastTs (now : Word64) : (setLastTs now s).lastTs = timerBits s.cfg now := rfl
@[simp] theorem setLastTs_dwell (now : Word64) : (setLastTs now s).dwell = s.dwell := rfl
@[simp] theorem setLastTs_brightness (now : Word64) : (setLastTs now s).brightness = s.brightness := rfl
@[simp] theorem setLastTs_clkEff (now : Word64) : (setLastTs now s).clkEff = s.clkEff := rfl
@[simp] theorem setLastTs_load (now : Word64) : (setLastTs now s).load = s.load := rfl
@[simp] theorem setLastTs_blank (now : Word64) : (setLastTs now s).blank = s.blank := rfl
@[simp] theorem setLastTs_sched (now : Word64) : (setLastTs now s).sched = s.sched := rfl
@[simp] theorem setLastTs_trace (now : Word64) : (setLastTs now s).trace = s.trace := rfl
@[simp] theorem setLastTs_responses (now : Word64) : (setLastTs now s).responses = s.responses := rfl
@[simp] theorem setLastTs_pending (now : Word64) : (setLastTs now s).pending = s.pending := rfl
@[simp] theorem setLastTs_faulted (now : Word64) : (setLastTs now s).faulted = s.faulted := rfl
@[simp] theorem setLastTs_refused (now : Word64) : (setLastTs now s).refused = s.refused := rfl

/-! `setDwellReg` writes dwell only (R127). -/

@[simp] theorem setDwellReg_cfg (d : Word64) : (setDwellReg d s).cfg = s.cfg := rfl
@[simp] theorem setDwellReg_seg (d : Word64) : (setDwellReg d s).seg = s.seg := rfl
@[simp] theorem setDwellReg_cursor (d : Word64) : (setDwellReg d s).cursor = s.cursor := rfl
@[simp] theorem setDwellReg_lastTs (d : Word64) : (setDwellReg d s).lastTs = s.lastTs := rfl
@[simp] theorem setDwellReg_dwell (d : Word64) : (setDwellReg d s).dwell = timerBits s.cfg d := rfl
@[simp] theorem setDwellReg_brightness (d : Word64) : (setDwellReg d s).brightness = s.brightness := rfl
@[simp] theorem setDwellReg_clkEff (d : Word64) : (setDwellReg d s).clkEff = s.clkEff := rfl
@[simp] theorem setDwellReg_load (d : Word64) : (setDwellReg d s).load = s.load := rfl
@[simp] theorem setDwellReg_blank (d : Word64) : (setDwellReg d s).blank = s.blank := rfl
@[simp] theorem setDwellReg_sched (d : Word64) : (setDwellReg d s).sched = s.sched := rfl
@[simp] theorem setDwellReg_trace (d : Word64) : (setDwellReg d s).trace = s.trace := rfl
@[simp] theorem setDwellReg_responses (d : Word64) : (setDwellReg d s).responses = s.responses := rfl
@[simp] theorem setDwellReg_pending (d : Word64) : (setDwellReg d s).pending = s.pending := rfl
@[simp] theorem setDwellReg_faulted (d : Word64) : (setDwellReg d s).faulted = s.faulted := rfl
@[simp] theorem setDwellReg_refused (d : Word64) : (setDwellReg d s).refused = s.refused := rfl

/-! `setSched` writes the scheduler's state only (R36). -/

@[simp] theorem setSched_cfg (x : Sched) : (setSched x s).cfg = s.cfg := rfl
@[simp] theorem setSched_seg (x : Sched) : (setSched x s).seg = s.seg := rfl
@[simp] theorem setSched_cursor (x : Sched) : (setSched x s).cursor = s.cursor := rfl
@[simp] theorem setSched_lastTs (x : Sched) : (setSched x s).lastTs = s.lastTs := rfl
@[simp] theorem setSched_dwell (x : Sched) : (setSched x s).dwell = s.dwell := rfl
@[simp] theorem setSched_brightness (x : Sched) : (setSched x s).brightness = s.brightness := rfl
@[simp] theorem setSched_clkEff (x : Sched) : (setSched x s).clkEff = s.clkEff := rfl
@[simp] theorem setSched_load (x : Sched) : (setSched x s).load = s.load := rfl
@[simp] theorem setSched_blank (x : Sched) : (setSched x s).blank = s.blank := rfl
@[simp] theorem setSched_sched (x : Sched) : (setSched x s).sched = x := rfl
@[simp] theorem setSched_trace (x : Sched) : (setSched x s).trace = s.trace := rfl
@[simp] theorem setSched_responses (x : Sched) : (setSched x s).responses = s.responses := rfl
@[simp] theorem setSched_pending (x : Sched) : (setSched x s).pending = s.pending := rfl
@[simp] theorem setSched_faulted (x : Sched) : (setSched x s).faulted = s.faulted := rfl
@[simp] theorem setSched_refused (x : Sched) : (setSched x s).refused = s.refused := rfl

/-! `emit` writes the trace only (R33). -/

@[simp] theorem emit_cfg (e : PinEvent) : (emit e s).cfg = s.cfg := rfl
@[simp] theorem emit_seg (e : PinEvent) : (emit e s).seg = s.seg := rfl
@[simp] theorem emit_cursor (e : PinEvent) : (emit e s).cursor = s.cursor := rfl
@[simp] theorem emit_lastTs (e : PinEvent) : (emit e s).lastTs = s.lastTs := rfl
@[simp] theorem emit_dwell (e : PinEvent) : (emit e s).dwell = s.dwell := rfl
@[simp] theorem emit_brightness (e : PinEvent) : (emit e s).brightness = s.brightness := rfl
@[simp] theorem emit_clkEff (e : PinEvent) : (emit e s).clkEff = s.clkEff := rfl
@[simp] theorem emit_load (e : PinEvent) : (emit e s).load = s.load := rfl
@[simp] theorem emit_blank (e : PinEvent) : (emit e s).blank = s.blank := rfl
@[simp] theorem emit_sched (e : PinEvent) : (emit e s).sched = s.sched := rfl
@[simp] theorem emit_trace (e : PinEvent) : (emit e s).trace = s.trace ++ [e] := rfl
@[simp] theorem emit_responses (e : PinEvent) : (emit e s).responses = s.responses := rfl
@[simp] theorem emit_pending (e : PinEvent) : (emit e s).pending = s.pending := rfl
@[simp] theorem emit_faulted (e : PinEvent) : (emit e s).faulted = s.faulted := rfl
@[simp] theorem emit_refused (e : PinEvent) : (emit e s).refused = s.refused := rfl

/-! `driveLoad` writes the trace and LOAD (R141). -/

@[simp] theorem driveLoad_cfg (v : Bool) : (driveLoad v s).cfg = s.cfg := rfl
@[simp] theorem driveLoad_seg (v : Bool) : (driveLoad v s).seg = s.seg := rfl
@[simp] theorem driveLoad_cursor (v : Bool) : (driveLoad v s).cursor = s.cursor := rfl
@[simp] theorem driveLoad_lastTs (v : Bool) : (driveLoad v s).lastTs = s.lastTs := rfl
@[simp] theorem driveLoad_dwell (v : Bool) : (driveLoad v s).dwell = s.dwell := rfl
@[simp] theorem driveLoad_brightness (v : Bool) : (driveLoad v s).brightness = s.brightness := rfl
@[simp] theorem driveLoad_clkEff (v : Bool) : (driveLoad v s).clkEff = s.clkEff := rfl
@[simp] theorem driveLoad_load (v : Bool) : (driveLoad v s).load = v := rfl
@[simp] theorem driveLoad_blank (v : Bool) : (driveLoad v s).blank = s.blank := rfl
@[simp] theorem driveLoad_sched (v : Bool) : (driveLoad v s).sched = s.sched := rfl
@[simp] theorem driveLoad_trace (v : Bool) : (driveLoad v s).trace = s.trace ++ [.loadSet v] := rfl
@[simp] theorem driveLoad_responses (v : Bool) : (driveLoad v s).responses = s.responses := rfl
@[simp] theorem driveLoad_pending (v : Bool) : (driveLoad v s).pending = s.pending := rfl
@[simp] theorem driveLoad_faulted (v : Bool) : (driveLoad v s).faulted = s.faulted := rfl
@[simp] theorem driveLoad_refused (v : Bool) : (driveLoad v s).refused = s.refused := rfl

/-! `respond` writes the response port only (R82). -/

@[simp] theorem respond_cfg (v : Word64) : (respond v s).cfg = s.cfg := rfl
@[simp] theorem respond_seg (v : Word64) : (respond v s).seg = s.seg := rfl
@[simp] theorem respond_cursor (v : Word64) : (respond v s).cursor = s.cursor := rfl
@[simp] theorem respond_lastTs (v : Word64) : (respond v s).lastTs = s.lastTs := rfl
@[simp] theorem respond_dwell (v : Word64) : (respond v s).dwell = s.dwell := rfl
@[simp] theorem respond_brightness (v : Word64) : (respond v s).brightness = s.brightness := rfl
@[simp] theorem respond_clkEff (v : Word64) : (respond v s).clkEff = s.clkEff := rfl
@[simp] theorem respond_load (v : Word64) : (respond v s).load = s.load := rfl
@[simp] theorem respond_blank (v : Word64) : (respond v s).blank = s.blank := rfl
@[simp] theorem respond_sched (v : Word64) : (respond v s).sched = s.sched := rfl
@[simp] theorem respond_trace (v : Word64) : (respond v s).trace = s.trace := rfl
@[simp] theorem respond_responses (v : Word64) : (respond v s).responses = s.responses ++ [v] := rfl
@[simp] theorem respond_pending (v : Word64) : (respond v s).pending = s.pending := rfl
@[simp] theorem respond_faulted (v : Word64) : (respond v s).faulted = s.faulted := rfl
@[simp] theorem respond_refused (v : Word64) : (respond v s).refused = s.refused := rfl

/-! `issue` writes the command port only. -/

@[simp] theorem issue_cfg (w : CommandWord) : (issue w s).cfg = s.cfg := rfl
@[simp] theorem issue_seg (w : CommandWord) : (issue w s).seg = s.seg := rfl
@[simp] theorem issue_cursor (w : CommandWord) : (issue w s).cursor = s.cursor := rfl
@[simp] theorem issue_lastTs (w : CommandWord) : (issue w s).lastTs = s.lastTs := rfl
@[simp] theorem issue_dwell (w : CommandWord) : (issue w s).dwell = s.dwell := rfl
@[simp] theorem issue_brightness (w : CommandWord) : (issue w s).brightness = s.brightness := rfl
@[simp] theorem issue_clkEff (w : CommandWord) : (issue w s).clkEff = s.clkEff := rfl
@[simp] theorem issue_load (w : CommandWord) : (issue w s).load = s.load := rfl
@[simp] theorem issue_blank (w : CommandWord) : (issue w s).blank = s.blank := rfl
@[simp] theorem issue_sched (w : CommandWord) : (issue w s).sched = s.sched := rfl
@[simp] theorem issue_trace (w : CommandWord) : (issue w s).trace = s.trace := rfl
@[simp] theorem issue_responses (w : CommandWord) : (issue w s).responses = s.responses := rfl
@[simp] theorem issue_pending (w : CommandWord) : (issue w s).pending = s.pending ++ [w] := rfl
@[simp] theorem issue_faulted (w : CommandWord) : (issue w s).faulted = s.faulted := rfl
@[simp] theorem issue_refused (w : CommandWord) : (issue w s).refused = s.refused := rfl

/-! `takeCommand` writes the command port only. -/

@[simp] theorem takeCommand_cfg : (takeCommand s).cfg = s.cfg := rfl
@[simp] theorem takeCommand_seg : (takeCommand s).seg = s.seg := rfl
@[simp] theorem takeCommand_cursor : (takeCommand s).cursor = s.cursor := rfl
@[simp] theorem takeCommand_lastTs : (takeCommand s).lastTs = s.lastTs := rfl
@[simp] theorem takeCommand_dwell : (takeCommand s).dwell = s.dwell := rfl
@[simp] theorem takeCommand_brightness : (takeCommand s).brightness = s.brightness := rfl
@[simp] theorem takeCommand_clkEff : (takeCommand s).clkEff = s.clkEff := rfl
@[simp] theorem takeCommand_load : (takeCommand s).load = s.load := rfl
@[simp] theorem takeCommand_blank : (takeCommand s).blank = s.blank := rfl
@[simp] theorem takeCommand_sched : (takeCommand s).sched = s.sched := rfl
@[simp] theorem takeCommand_trace : (takeCommand s).trace = s.trace := rfl
@[simp] theorem takeCommand_responses : (takeCommand s).responses = s.responses := rfl
@[simp] theorem takeCommand_pending : (takeCommand s).pending = s.pending.tail := rfl
@[simp] theorem takeCommand_faulted : (takeCommand s).faulted = s.faulted := rfl
@[simp] theorem takeCommand_refused : (takeCommand s).refused = s.refused := rfl

/-! `markFaulted` writes the faulted mark only (R38). -/

@[simp] theorem markFaulted_cfg (r : Fault) : (markFaulted r s).cfg = s.cfg := rfl
@[simp] theorem markFaulted_seg (r : Fault) : (markFaulted r s).seg = s.seg := rfl
@[simp] theorem markFaulted_cursor (r : Fault) : (markFaulted r s).cursor = s.cursor := rfl
@[simp] theorem markFaulted_lastTs (r : Fault) : (markFaulted r s).lastTs = s.lastTs := rfl
@[simp] theorem markFaulted_dwell (r : Fault) : (markFaulted r s).dwell = s.dwell := rfl
@[simp] theorem markFaulted_brightness (r : Fault) : (markFaulted r s).brightness = s.brightness := rfl
@[simp] theorem markFaulted_clkEff (r : Fault) : (markFaulted r s).clkEff = s.clkEff := rfl
@[simp] theorem markFaulted_load (r : Fault) : (markFaulted r s).load = s.load := rfl
@[simp] theorem markFaulted_blank (r : Fault) : (markFaulted r s).blank = s.blank := rfl
@[simp] theorem markFaulted_sched (r : Fault) : (markFaulted r s).sched = s.sched := rfl
@[simp] theorem markFaulted_trace (r : Fault) : (markFaulted r s).trace = s.trace := rfl
@[simp] theorem markFaulted_responses (r : Fault) : (markFaulted r s).responses = s.responses := rfl
@[simp] theorem markFaulted_pending (r : Fault) : (markFaulted r s).pending = s.pending := rfl
@[simp] theorem markFaulted_faulted (r : Fault) : (markFaulted r s).faulted = some (s.faulted.getD r) := rfl
@[simp] theorem markFaulted_refused (r : Fault) : (markFaulted r s).refused = s.refused := rfl

/-! `markRefused` writes the refused mark only (R38). -/

@[simp] theorem markRefused_cfg (r : Refusal) : (markRefused r s).cfg = s.cfg := rfl
@[simp] theorem markRefused_seg (r : Refusal) : (markRefused r s).seg = s.seg := rfl
@[simp] theorem markRefused_cursor (r : Refusal) : (markRefused r s).cursor = s.cursor := rfl
@[simp] theorem markRefused_lastTs (r : Refusal) : (markRefused r s).lastTs = s.lastTs := rfl
@[simp] theorem markRefused_dwell (r : Refusal) : (markRefused r s).dwell = s.dwell := rfl
@[simp] theorem markRefused_brightness (r : Refusal) : (markRefused r s).brightness = s.brightness := rfl
@[simp] theorem markRefused_clkEff (r : Refusal) : (markRefused r s).clkEff = s.clkEff := rfl
@[simp] theorem markRefused_load (r : Refusal) : (markRefused r s).load = s.load := rfl
@[simp] theorem markRefused_blank (r : Refusal) : (markRefused r s).blank = s.blank := rfl
@[simp] theorem markRefused_sched (r : Refusal) : (markRefused r s).sched = s.sched := rfl
@[simp] theorem markRefused_trace (r : Refusal) : (markRefused r s).trace = s.trace := rfl
@[simp] theorem markRefused_responses (r : Refusal) : (markRefused r s).responses = s.responses := rfl
@[simp] theorem markRefused_pending (r : Refusal) : (markRefused r s).pending = s.pending := rfl
@[simp] theorem markRefused_faulted (r : Refusal) : (markRefused r s).faulted = s.faulted := rfl
@[simp] theorem markRefused_refused (r : Refusal) : (markRefused r s).refused = some (s.refused.getD r) := rfl

/-! `beginScan` writes the cursor and the scheduler's state (R123). -/

@[simp] theorem beginScan_cfg : (beginScan s).cfg = s.cfg := rfl
@[simp] theorem beginScan_seg : (beginScan s).seg = s.seg := rfl
@[simp] theorem beginScan_cursor : (beginScan s).cursor = BitVec.ofNat 4 ((s.cursor.toNat + 1) % s.cfg.grids) := rfl
@[simp] theorem beginScan_lastTs : (beginScan s).lastTs = s.lastTs := rfl
@[simp] theorem beginScan_dwell : (beginScan s).dwell = s.dwell := rfl
@[simp] theorem beginScan_brightness : (beginScan s).brightness = s.brightness := rfl
@[simp] theorem beginScan_clkEff : (beginScan s).clkEff = s.clkEff := rfl
@[simp] theorem beginScan_load : (beginScan s).load = s.load := rfl
@[simp] theorem beginScan_blank : (beginScan s).blank = s.blank := rfl
@[simp] theorem beginScan_sched : (beginScan s).sched = .scanning := rfl
@[simp] theorem beginScan_trace : (beginScan s).trace = s.trace := rfl
@[simp] theorem beginScan_responses : (beginScan s).responses = s.responses := rfl
@[simp] theorem beginScan_pending : (beginScan s).pending = s.pending := rfl
@[simp] theorem beginScan_faulted : (beginScan s).faulted = s.faulted := rfl
@[simp] theorem beginScan_refused : (beginScan s).refused = s.refused := rfl

/-! `abandonScan` writes the cursor and the scheduler's state (R36, R123). -/

@[simp] theorem abandonScan_cfg : (abandonScan s).cfg = s.cfg := rfl
@[simp] theorem abandonScan_seg : (abandonScan s).seg = s.seg := rfl
@[simp] theorem abandonScan_cursor : (abandonScan s).cursor = BitVec.ofNat 4 ((s.cursor.toNat + 1) % s.cfg.grids) := rfl
@[simp] theorem abandonScan_lastTs : (abandonScan s).lastTs = s.lastTs := rfl
@[simp] theorem abandonScan_dwell : (abandonScan s).dwell = s.dwell := rfl
@[simp] theorem abandonScan_brightness : (abandonScan s).brightness = s.brightness := rfl
@[simp] theorem abandonScan_clkEff : (abandonScan s).clkEff = s.clkEff := rfl
@[simp] theorem abandonScan_load : (abandonScan s).load = s.load := rfl
@[simp] theorem abandonScan_blank : (abandonScan s).blank = s.blank := rfl
@[simp] theorem abandonScan_sched : (abandonScan s).sched = .idle := rfl
@[simp] theorem abandonScan_trace : (abandonScan s).trace = s.trace := rfl
@[simp] theorem abandonScan_responses : (abandonScan s).responses = s.responses := rfl
@[simp] theorem abandonScan_pending : (abandonScan s).pending = s.pending := rfl
@[simp] theorem abandonScan_faulted : (abandonScan s).faulted = s.faulted := rfl
@[simp] theorem abandonScan_refused : (abandonScan s).refused = s.refused := rfl

/-! `endScan` writes last_ts and the scheduler's state (R123). -/

@[simp] theorem endScan_cfg (now : Word64) : (endScan now s).cfg = s.cfg := rfl
@[simp] theorem endScan_seg (now : Word64) : (endScan now s).seg = s.seg := rfl
@[simp] theorem endScan_cursor (now : Word64) : (endScan now s).cursor = s.cursor := rfl
@[simp] theorem endScan_lastTs (now : Word64) : (endScan now s).lastTs = timerBits s.cfg now := rfl
@[simp] theorem endScan_dwell (now : Word64) : (endScan now s).dwell = s.dwell := rfl
@[simp] theorem endScan_brightness (now : Word64) : (endScan now s).brightness = s.brightness := rfl
@[simp] theorem endScan_clkEff (now : Word64) : (endScan now s).clkEff = s.clkEff := rfl
@[simp] theorem endScan_load (now : Word64) : (endScan now s).load = s.load := rfl
@[simp] theorem endScan_blank (now : Word64) : (endScan now s).blank = s.blank := rfl
@[simp] theorem endScan_sched (now : Word64) : (endScan now s).sched = .idle := rfl
@[simp] theorem endScan_trace (now : Word64) : (endScan now s).trace = s.trace := rfl
@[simp] theorem endScan_responses (now : Word64) : (endScan now s).responses = s.responses := rfl
@[simp] theorem endScan_pending (now : Word64) : (endScan now s).pending = s.pending := rfl
@[simp] theorem endScan_faulted (now : Word64) : (endScan now s).faulted = s.faulted := rfl
@[simp] theorem endScan_refused (now : Word64) : (endScan now s).refused = s.refused := rfl

end Sys2Proof.Machine
end

