-- ==== Sys2Proof/Laws/Store.lean ====
section
/-! SUPPORT. The segment store: read after write, the canonical form, and what a write can put in it. -/

namespace Sys2Proof.Machine

@[simp] theorem Memory.read_nil (g : Nat) : Memory.read [] g = 0#64 := rfl

theorem Memory.wf_nil : Memory.wf [] := by simp [Memory.wf]

/-- In a canonical store an index below every listed one reads as unlisted. -/
theorem Memory.read_below {m : Memory} {g : Nat} (h : ∀ e ∈ m, g < e.1) : m.read g = 0#64 := by
  induction m with
  | nil => rfl
  | cons e t ih =>
    obtain ⟨k, x⟩ := e
    have hk : g < k := h (k, x) (by simp)
    simp only [Memory.read, Nat.ne_of_lt hk, if_false]
    exact ih fun e he => h e (by simp [he])

/-- A write leaves every other entry alone (R53). -/
theorem Memory.read_write_other {g g' : Nat} (h : g' ≠ g) (m : Memory) (v : Word64) :
    (m.write g v).read g' = m.read g' := by
  induction m with
  | nil =>
    simp only [Memory.write]
    split <;> simp [Memory.read, h, Memory.unlisted]
  | cons e t ih =>
    obtain ⟨k, x⟩ := e
    simp only [Memory.write]
    split
    · split <;> simp [Memory.read, h]
    · split
      · subst_vars
        split <;> simp [Memory.read, h]
      · simp only [Memory.read, ih]

/-- A read after a write of the same entry gives the value written (R50, R60). -/
theorem Memory.read_write_same {m : Memory} (hm : m.wf) (g : Nat) (v : Word64) : (m.write g v).read g = v := by
  induction m with
  | nil =>
    by_cases hv : v = Memory.unlisted
    · simp [Memory.write, hv, Memory.unlisted]
    · simp [Memory.write, Memory.read, hv]
  | cons e t ih =>
    obtain ⟨k, x⟩ := e
    obtain ⟨hp, hn⟩ := hm
    rw [List.pairwise_cons] at hp
    have ht : Memory.wf t := ⟨hp.2, fun e he => hn e (by simp [he])⟩
    simp only [Memory.write]
    split
    · rename_i hgk
      split
      · rename_i hv
        rw [hv]
        apply Memory.read_below
        intro e he
        rcases List.mem_cons.1 he with rfl | he
        · exact hgk
        · exact Nat.lt_trans hgk (hp.1 e he)
      · simp [Memory.read]
    · split
      · rename_i hgk
        subst hgk
        split
        · rename_i hv
          rw [hv]
          exact Memory.read_below fun e he => hp.1 e he
        · simp [Memory.read]
      · rename_i h1 h2
        simp only [Memory.read, h2, if_false]
        exact ih ht

/-- Every listed entry after a write is the one written, not zero, or was listed before. -/
theorem Memory.mem_write {m : Memory} {g : Nat} {v : Word64} {e : Nat × Word64} (h : e ∈ m.write g v) :
    (e = (g, v) ∧ v ≠ 0#64) ∨ e ∈ m := by
  induction m with
  | nil =>
    simp only [Memory.write] at h
    split at h
    · simp at h
    · exact .inl ⟨by simpa using h, ‹_›⟩
  | cons f t ih =>
    obtain ⟨k, x⟩ := f
    simp only [Memory.write] at h
    split at h
    · split at h
      · exact .inr h
      · rcases List.mem_cons.1 h with h | h
        · exact .inl ⟨h, ‹_›⟩
        · exact .inr h
    · split at h
      · split at h
        · exact .inr (by simp [h])
        · rcases List.mem_cons.1 h with h | h
          · exact .inl ⟨h, ‹_›⟩
          · exact .inr (by simp [h])
      · rcases List.mem_cons.1 h with h | h
        · exact .inr (by simp [h])
        · rcases ih h with h | h
          · exact .inl h
          · exact .inr (by simp [h])

/-- A write keeps the canonical form. -/
theorem Memory.write_wf {m : Memory} (hm : m.wf) (g : Nat) (v : Word64) : (m.write g v).wf := by
  refine ⟨?_, fun e he => ?_⟩
  · induction m with
    | nil =>
      simp only [Memory.write]
      split <;> simp
    | cons f t ih =>
      obtain ⟨k, x⟩ := f
      obtain ⟨hp, hn⟩ := hm
      have hp' := hp
      rw [List.pairwise_cons] at hp'
      have ht : Memory.wf t := ⟨hp'.2, fun e he => hn e (by simp [he])⟩
      simp only [Memory.write]
      split
      · rename_i hgk
        split
        · exact hp
        · rw [List.pairwise_cons]
          refine ⟨fun e he => ?_, hp⟩
          rcases List.mem_cons.1 he with rfl | he
          · exact hgk
          · exact Nat.lt_trans hgk (hp'.1 e he)
      · split
        · rename_i hgk
          split
          · exact hp'.2
          · rw [List.pairwise_cons]
            exact ⟨fun e he => hgk ▸ hp'.1 e he, hp'.2⟩
        · rename_i h1 h2
          rw [List.pairwise_cons]
          refine ⟨fun e he => ?_, ih ht⟩
          rcases Memory.mem_write he with ⟨rfl, -⟩ | he
          · exact Nat.lt_of_le_of_ne (Nat.le_of_not_lt h1) (Ne.symm h2)
          · exact hp'.1 e he
  · rcases Memory.mem_write he with ⟨rfl, hv⟩ | he
    · exact hv
    · exact hm.2 e he

/-- Two canonical stores that read alike are the same data. -/
theorem Memory.eq_of_read_eq {m n : Memory} (hm : m.wf) (hn : n.wf) (h : ∀ g, m.read g = n.read g) : m = n := by
  induction m generalizing n with
  | nil =>
    cases n with
    | nil => rfl
    | cons e t =>
      obtain ⟨k, x⟩ := e
      have := h k
      simp only [Memory.read, if_true] at this
      exact absurd this.symm (hn.2 (k, x) (by simp))
  | cons e t ih =>
    obtain ⟨k, x⟩ := e
    have hpt := List.pairwise_cons.1 hm.1
    have ht : Memory.wf t := ⟨hpt.2, fun e he => hm.2 e (by simp [he])⟩
    have hx : x ≠ 0#64 := hm.2 (k, x) (by simp)
    cases n with
    | nil =>
      have := h k
      simp only [Memory.read, if_true] at this
      exact absurd this hx
    | cons f u =>
      obtain ⟨j, y⟩ := f
      have hpu := List.pairwise_cons.1 hn.1
      have hu : Memory.wf u := ⟨hpu.2, fun e he => hn.2 e (by simp [he])⟩
      have hy : y ≠ 0#64 := hn.2 (j, y) (by simp)
      have hkj : k = j := by
        rcases Nat.lt_trichotomy k j with hlt | heq | hgt
        · have h1 := h k
          rw [Memory.read_below (m := (j, y) :: u) (g := k)] at h1
          · simp only [Memory.read, if_true] at h1
            exact absurd h1 hx
          · intro e he
            rcases List.mem_cons.1 he with rfl | he
            · exact hlt
            · exact Nat.lt_trans hlt (hpu.1 e he)
        · exact heq
        · have h1 := h j
          rw [Memory.read_below (m := (k, x) :: t) (g := j)] at h1
          · simp only [Memory.read, if_true] at h1
            exact absurd h1.symm hy
          · intro e he
            rcases List.mem_cons.1 he with rfl | he
            · exact hgt
            · exact Nat.lt_trans hgt (hpt.1 e he)
      subst hkj
      have hxy : x = y := by simpa [Memory.read] using h k
      subst hxy
      have htu : t = u := by
        refine ih ht hu fun g => ?_
        by_cases hg : g = k
        · subst hg
          rw [Memory.read_below hpt.1, Memory.read_below hpu.1]
        · simpa [Memory.read, hg] using h g
      rw [htu]

/-- A bound on every listed entry is a bound on every read. -/
theorem Memory.read_lt {m : Memory} {n : Nat} (h : ∀ e ∈ m, e.2.toNat < 2 ^ n) (g : Nat) : (m.read g).toNat < 2 ^ n := by
  induction m with
  | nil => simp
  | cons e t ih =>
    obtain ⟨k, x⟩ := e
    simp only [Memory.read]
    split
    · exact h (k, x) (by simp)
    · exact ih fun e he => h e (by simp [he])

/-! ### clearBelow -/

/-- CLEAR's loop writes the segment store only. -/
theorem clearBelow_eq (n : Nat) (s : State) : clearBelow n s = { s with seg := (clearBelow n s).seg } := by
  induction n with
  | zero => rfl
  | succ n ih => rw [clearBelow, memWrite, ih]

theorem clearBelow_wf {s : State} (h : s.seg.wf) (n : Nat) : (clearBelow n s).seg.wf := by
  induction n with
  | zero => exact h
  | succ n ih => exact Memory.write_wf ih n 0#64

theorem clearBelow_read_lt {s : State} (h : s.seg.wf) {n g : Nat} (hg : g < n) :
    (clearBelow n s).seg.read g = 0#64 := by
  induction n with
  | zero => omega
  | succ n ih =>
    by_cases hgn : g = n
    · subst hgn
      exact Memory.read_write_same (clearBelow_wf h g) g 0#64
    · simp only [clearBelow, memWrite_seg, Memory.read_write_other hgn]
      exact ih (by omega)

theorem clearBelow_read_ge (s : State) {n g : Nat} (hg : n ≤ g) : (clearBelow n s).seg.read g = s.seg.read g := by
  induction n with
  | zero => rfl
  | succ n ih =>
    simp only [clearBelow, memWrite_seg, Memory.read_write_other (show g ≠ n by omega)]
    exact ih (by omega)

theorem clearBelow_mem {s : State} {n : Nat} {e : Nat × Word64} (h : e ∈ (clearBelow n s).seg) : e ∈ s.seg := by
  induction n with
  | zero => exact h
  | succ n ih =>
    rcases Memory.mem_write h with ⟨-, hv⟩ | h
    · exact absurd rfl hv
    · exact ih h

end Sys2Proof.Machine
end

