-- ==== Sys2Proof/Laws/Transfer.lean ====
section
/-! SUPPORT. What a transfer does: the frame goes out, LOAD ends high, nothing else changes (R141, R145). -/

namespace Sys2Proof.Machine

/-- Bytes shifted out are appended to the trace in order. -/
theorem shiftBytes_eq (bs : List WireByte) (s : State) :
    shiftBytes bs s = { s with trace := s.trace ++ bs.map .shiftByte } := by
  induction bs generalizing s with
  | nil => simp [shiftBytes]
  | cons b t ih => simp [shiftBytes, ih, emit]

/-- The events of `DoTransfer` are R72's frame. -/
theorem sendFrame_eq (w1 w2 : ChipWord) (s : State) :
    sendFrame w1 w2 s = { s with trace := s.trace ++ frame s.cfg w1 w2, load := true } := by
  by_cases h : s.cfg.chips = 2 <;>
    simp [sendFrame, shiftBytes_eq, driveLoad, emit, frame, h]

theorem doTransfer_present {s : State} (h : s.cfg.transportPresent = true) (w1 w2 : ChipWord) :
    doTransfer w1 w2 s = .next { s with trace := s.trace ++ frame s.cfg w1 w2, load := true } := by
  simp [doTransfer, h, sendFrame_eq]

theorem doTransfer_absent {s : State} (h : s.cfg.transportPresent = false) (w1 w2 : ChipWord) :
    doTransfer w1 w2 s = .fault .transportUnavailable := by
  simp [doTransfer, h, raise]

/-- Everything a transfer that completes can do. -/
theorem doTransfer_next {s t : State} {w1 w2 : ChipWord} (h : doTransfer w1 w2 s = .next t) :
    s.cfg.transportPresent = true ∧ t = { s with trace := s.trace ++ frame s.cfg w1 w2, load := true } := by
  cases hp : s.cfg.transportPresent with
  | true =>
    rw [doTransfer_present hp] at h
    exact ⟨rfl, (Host.Outcome.next.inj h).symm⟩
  | false => simp [doTransfer_absent hp] at h

/-- A frame is never empty: it begins with LOAD low (R142). -/
theorem frame_ne_nil (c : Config) (w1 w2 : ChipWord) : frame c w1 w2 ≠ [] := by simp [frame]

/-- A frame has 2 + 3 × NCHIP events for NCHIP = 1 or 2 (R72, R241). -/
theorem frame_length {c : Config} (h : c.chips = 1 ∨ c.chips = 2) (w1 w2 : ChipWord) :
    (frame c w1 w2).length = 2 + 3 * c.chips := by
  rcases h with h | h <;> simp [frame, wordBytes, h]

end Sys2Proof.Machine
end

