-- ==== Sys2Proof/Laws/Exec.lean ====
section
/-! SUPPORT. What each command's meaning can do, said once; how exec treats the command port and the marks. -/

namespace Sys2Proof.Machine

/-- The state of a TICK that advances and finds the transport (R123). -/
def scanned (now : Word64) (s : State) : State :=
  endScan now (sendFrame (cursorWords (beginScan s)).1 (cursorWords (beginScan s)).2 (beginScan s))

theorem execTick_waits {s : State} {now : Word64} (h : advances s now = false) : execTick now s = .next s := by
  simp [execTick, h]

theorem execTick_advances {s : State} {now : Word64} (h : advances s now = true)
    (hp : s.cfg.transportPresent = true) : execTick now s = .next (scanned now s) := by
  simp [execTick, h, scanNext, doTransfer, hp, scanned]

theorem execTick_faults {s : State} {now : Word64} (h : advances s now = true)
    (hp : s.cfg.transportPresent = false) : execTick now s = .fault .transportUnavailable := by
  simp [execTick, h, scanNext, doTransfer, hp, raise]

/-- Everything a TICK that completes can do. -/
theorem execTick_next {s t : State} {now : Word64} (h : execTick now s = .next t) :
    advances s now = false ∧ t = s ∨
    advances s now = true ∧ s.cfg.transportPresent = true ∧ t = scanned now s := by
  cases ha : advances s now with
  | false =>
    rw [execTick_waits ha] at h
    exact .inl ⟨rfl, (Host.Outcome.next.inj h).symm⟩
  | true =>
    cases hp : s.cfg.transportPresent with
    | true =>
      rw [execTick_advances ha hp] at h
      exact .inr ⟨rfl, rfl, (Host.Outcome.next.inj h).symm⟩
    | false => simp [execTick_faults ha hp] at h

/-- The fields of the state after a scan. -/
theorem scanned_eq (now : Word64) (s : State) :
    scanned now s =
      { s with
        cursor := (beginScan s).cursor
        lastTs := timerBits s.cfg now
        sched := .idle
        load := true
        trace := s.trace ++ frame s.cfg (cursorWords (beginScan s)).1 (cursorWords (beginScan s)).2 } := by
  simp [scanned, sendFrame_eq, endScan, setSched, setLastTs, beginScan, advanceCursor]

/-- The new cursor as a number, where G is at most 16 (R122). -/
theorem beginScan_cursor_toNat {s : State} (h1 : 1 ≤ s.cfg.grids) (h16 : s.cfg.grids ≤ 16) :
    (beginScan s).cursor.toNat = (s.cursor.toNat + 1) % s.cfg.grids := by
  rw [beginScan_cursor, BitVec.toNat_ofNat]
  exact Nat.mod_eq_of_lt (Nat.lt_of_lt_of_le (Nat.mod_lt _ h1) h16)

theorem execSetSegment_in {s : State} {g sg : BitVec 8} (hg : g.toNat < s.cfg.grids) (hs : sg.toNat < s.cfg.segments)
    (v : Bool) : execSetSegment g sg v s = .next (memWrite g.toNat (putBit (memRead s g.toNat) sg.toNat v) s) := by
  simp [execSetSegment, inRange, segmentInRange, gridIndex, segmentIndex, hg, hs]

theorem execSetSegment_out {s : State} {g sg : BitVec 8} (h : ¬(g.toNat < s.cfg.grids ∧ sg.toNat < s.cfg.segments))
    (v : Bool) : execSetSegment g sg v s = .next s := by
  simp [execSetSegment, inRange, segmentInRange, gridIndex, segmentIndex, h]

theorem execSetGrid_in {s : State} {g : BitVec 8} (hg : g.toNat < s.cfg.grids) (m : Word64) :
    execSetGrid g m s = .next (memWrite g.toNat (segmentBits s.cfg m) s) := by
  simp [execSetGrid, inRange, gridIndex, hg]

theorem execSetGrid_out {s : State} {g : BitVec 8} (hg : ¬g.toNat < s.cfg.grids) (m : Word64) :
    execSetGrid g m s = .next s := by
  simp [execSetGrid, inRange, gridIndex, hg]

/-- No command stops but a transfer without its transport (R144, R205): every outcome of exec is a next state or that
fault. -/
theorem exec_outcome (i : Instr) (s : State) :
    (∃ t, exec i s = .next t) ∨ s.cfg.transportPresent = false ∧ exec i s = .fault .transportUnavailable := by
  cases i with
  | pack g m => exact .inl ⟨_, rfl⟩
  | tick now =>
    change (∃ t, execTick now s = .next t) ∨ _ ∧ execTick now s = _
    cases ha : advances s now with
    | false => exact .inl ⟨_, execTick_waits ha⟩
    | true =>
      cases hp : s.cfg.transportPresent with
      | true => exact .inl ⟨_, execTick_advances ha hp⟩
      | false => exact .inr ⟨rfl, execTick_faults ha hp⟩
  | transfer w1 w2 =>
    change (∃ t, doTransfer w1 w2 s = .next t) ∨ _ ∧ doTransfer w1 w2 s = _
    cases hp : s.cfg.transportPresent with
    | true => exact .inl ⟨_, doTransfer_present hp w1 w2⟩
    | false => exact .inr ⟨rfl, doTransfer_absent hp w1 w2⟩
  | setDwell d => exact .inl ⟨_, rfl⟩
  | getDwell => exact .inl ⟨_, rfl⟩
  | clear => exact .inl ⟨_, rfl⟩
  | setSegment g sg v =>
    by_cases h : g.toNat < s.cfg.grids ∧ sg.toNat < s.cfg.segments
    · exact .inl ⟨_, execSetSegment_in h.1 h.2 v⟩
    · exact .inl ⟨_, execSetSegment_out h v⟩
  | setGrid g m =>
    by_cases h : g.toNat < s.cfg.grids
    · exact .inl ⟨_, execSetGrid_in h m⟩
    · exact .inl ⟨_, execSetGrid_out h m⟩
  | readGrid g => exact .inl ⟨_, rfl⟩
  | getBrightness => exact .inl ⟨_, rfl⟩

/-- Everything a command that completes can do to the state, one case per kind of effect. -/
theorem exec_next {i : Instr} {s t : State} (h : exec i s = .next t) :
    t = s ∨
    (∃ v, t = respond v s) ∨
    (∃ d, i = .setDwell d ∧ t = setDwellReg d s) ∨
    (i = .clear ∧ t = clearBelow s.cfg.grids s) ∨
    (∃ g v, g < s.cfg.grids ∧ t = memWrite g v s ∧
      ((∃ sg b, sg < s.cfg.segments ∧ v = putBit (memRead s g) sg b) ∨ ∃ m, v = segmentBits s.cfg m)) ∨
    (∃ w1 w2, i = .transfer w1 w2 ∧ s.cfg.transportPresent = true ∧ t = sendFrame w1 w2 s) ∨
    (∃ now, i = .tick now ∧ advances s now = true ∧ s.cfg.transportPresent = true ∧ t = scanned now s) := by
  cases i with
  | pack g m => exact .inr (.inl ⟨_, (Host.Outcome.next.inj h).symm⟩)
  | tick now =>
    rcases execTick_next h with ⟨-, rfl⟩ | ⟨ha, hp, rfl⟩
    · exact .inl rfl
    · exact .inr (.inr (.inr (.inr (.inr (.inr ⟨now, rfl, ha, hp, rfl⟩)))))
  | transfer w1 w2 =>
    obtain ⟨hp, rfl⟩ := doTransfer_next h
    exact .inr (.inr (.inr (.inr (.inr (.inl ⟨w1, w2, rfl, hp, (sendFrame_eq w1 w2 s).symm⟩)))))
  | setDwell d => exact .inr (.inr (.inl ⟨d, rfl, (Host.Outcome.next.inj h).symm⟩))
  | getDwell => exact .inr (.inl ⟨_, (Host.Outcome.next.inj h).symm⟩)
  | clear => exact .inr (.inr (.inr (.inl ⟨rfl, (Host.Outcome.next.inj h).symm⟩)))
  | setSegment g sg v =>
    by_cases hc : g.toNat < s.cfg.grids ∧ sg.toNat < s.cfg.segments
    · have ht := (execSetSegment_in hc.1 hc.2 v).symm.trans h
      exact .inr (.inr (.inr (.inr (.inl ⟨_, _, hc.1, (Host.Outcome.next.inj ht).symm, .inl ⟨_, _, hc.2, rfl⟩⟩))))
    · exact .inl (Host.Outcome.next.inj ((execSetSegment_out hc v).symm.trans h)).symm
  | setGrid g m =>
    by_cases hc : g.toNat < s.cfg.grids
    · have ht := (execSetGrid_in hc m).symm.trans h
      exact .inr (.inr (.inr (.inr (.inl ⟨_, _, hc, (Host.Outcome.next.inj ht).symm, .inr ⟨_, rfl⟩⟩))))
    · exact .inl (Host.Outcome.next.inj ((execSetGrid_out hc m).symm.trans h)).symm
  | readGrid g => exact .inr (.inl ⟨_, (Host.Outcome.next.inj h).symm⟩)
  | getBrightness => exact .inr (.inl ⟨_, (Host.Outcome.next.inj h).symm⟩)

end Sys2Proof.Machine
end

