-- ==== Sys2Proof/Laws/Operands.lean ====
section
/-! SUPPORT. Narrowing of operands, single bits of an entry, and what a valid configuration says. -/

namespace Sys2Proof.Machine

theorem lowBits_toNat {w : Nat} (n : Nat) (v : BitVec w) : (lowBits n v).toNat = v.toNat % 2 ^ n := by
  rw [lowBits, BitVec.toNat_ofNat]
  exact Nat.mod_eq_of_lt (Nat.lt_of_le_of_lt (Nat.mod_le _ _) v.isLt)

theorem lowBits_lt {w : Nat} (n : Nat) (v : BitVec w) : (lowBits n v).toNat < 2 ^ n := by
  rw [lowBits_toNat]
  exact Nat.mod_lt _ (Nat.two_pow_pos n)

@[simp] theorem lowBits_getLsbD {w : Nat} (n : Nat) (v : BitVec w) (i : Nat) :
    (lowBits n v).getLsbD i = (decide (i < n) && v.getLsbD i) := by
  rw [← BitVec.testBit_toNat, lowBits_toNat, Nat.testBit_mod_two_pow, BitVec.testBit_toNat]

/-- A value that already fits is kept. -/
theorem lowBits_of_lt {w : Nat} {n : Nat} {v : BitVec w} (h : v.toNat < 2 ^ n) : lowBits n v = v := by
  apply BitVec.eq_of_toNat_eq
  rw [lowBits_toNat, Nat.mod_eq_of_lt h]

theorem segmentBits_lt (c : Config) (m : Word64) : (segmentBits c m).toNat < 2 ^ c.segments := lowBits_lt _ _

theorem timerBits_lt (c : Config) (v : Word64) : (timerBits c v).toNat < 2 ^ c.timerWidth := lowBits_lt _ _

theorem timerBits_of_lt {c : Config} {v : Word64} (h : v.toNat < 2 ^ c.timerWidth) : timerBits c v = v :=
  lowBits_of_lt h

/-- `e[s] <- v` replaces bit s and no other (R161). -/
theorem putBit_getLsbD (e : Word64) {s : Nat} (hs : s < 64) (v : Bool) (j : Nat) :
    (putBit e s v).getLsbD j = if j = s then v else e.getLsbD j := by
  by_cases hj : j < 64
  · by_cases hjs : j = s
    · subst hjs
      cases v <;> simp [putBit, hj]
    · have : ¬(j - s = 0 ∧ ¬j < s) := by omega
      cases v <;> simp [putBit, hj, hjs] <;> omega
  · have h1 : (putBit e s v).getLsbD j = false := BitVec.getLsbD_of_ge _ _ (by omega)
    have h2 : e.getLsbD j = false := BitVec.getLsbD_of_ge _ _ (by omega)
    rw [h1, h2]
    split
    · omega
    · rfl

/-- Bits at and above n are clear exactly when the value is below 2^n. -/
theorem toNat_lt_of_high_clear {n : Nat} {v : Word64} (h : ∀ j, n ≤ j → v.getLsbD j = false) : v.toNat < 2 ^ n :=
  Nat.lt_pow_two_of_testBit _ fun j hj => by rw [BitVec.testBit_toNat]; exact h j hj

theorem high_clear_of_toNat_lt {n : Nat} {v : Word64} (h : v.toNat < 2 ^ n) {j : Nat} (hj : n ≤ j) :
    v.getLsbD j = false := by
  rw [← BitVec.testBit_toNat]
  exact Nat.testBit_lt_two_pow (Nat.lt_of_lt_of_le h (Nat.pow_le_pow_right (by omega) hj))

/-- Setting or clearing a segment below S keeps `e[63:S]` = 0 (R26). -/
theorem putBit_lt {e : Word64} {n s : Nat} (he : e.toNat < 2 ^ n) (hs : s < n) (h64 : s < 64) (v : Bool) :
    (putBit e s v).toNat < 2 ^ n := by
  apply toNat_lt_of_high_clear
  intro j hj
  rw [putBit_getLsbD e h64, if_neg (by omega)]
  exact high_clear_of_toNat_lt he hj

/-- R230's checks, one by one. -/
theorem validConfig_iff (c : Config) : validConfig c = true ↔
    1 ≤ c.grids ∧ c.grids ≤ 16 ∧ 1 ≤ c.segments ∧ c.segments ≤ 64 ∧ (c.chips = 1 ∨ c.chips = 2) ∧
    c.grids + c.segments ≤ 20 * c.chips ∧ 1 ≤ c.timerWidth ∧ c.timerWidth ≤ 64 ∧ c.cursorInit < c.grids ∧
    c.lastTsInit < 2 ^ c.timerWidth ∧ c.brightnessInit ≤ c.maxBrightness ∧ c.brightnessInit < 2 ^ 8 := by
  simp only [validConfig, fitsChain, Bool.and_eq_true, Bool.or_eq_true, decide_eq_true_eq, and_assoc]
  exact Iff.rfl

theorem validConfig_layout {c : Config} (h : validConfig c = true) :
    1 ≤ c.grids ∧ c.grids ≤ 16 ∧ 1 ≤ c.segments ∧ c.grids + c.segments ≤ 40 ∧ c.timerWidth ≤ 64 := by
  have := (validConfig_iff c).1 h
  omega

end Sys2Proof.Machine
end

