-- ==== Sys2Proof/Laws/Packer.lean ====
section
/-! SUPPORT. The Bit Packer, bit by bit (R100 to R105). -/

namespace Sys2Proof.Machine

/-- The grid-select field has bit g and no other, and none at all for g ≥ G (R100, R106). -/
theorem gridSel_getLsbD (c : Config) (g i : Nat) :
    (gridSel c g).getLsbD i = (decide (g < c.grids) && decide (i = g) && decide (i < 40)) := by
  unfold gridSel inRange
  by_cases hg : g < c.grids
  · by_cases hi : i < 40
    · by_cases hig : i = g
      · subst hig
        simp [hg, hi]
      · simp [hg, hi, hig]
        omega
    · simp [hg, hi]
  · simp [hg]

/-- The segment field has segment i at bit G + i (R101). -/
theorem segField_getLsbD (c : Config) (m : Word64) (i : Nat) :
    (segField c m).getLsbD i =
      (decide (c.grids ≤ i) && decide (i < c.grids + c.segments) && decide (i < 40) && m.getLsbD (i - c.grids)) := by
  unfold segField segmentBits
  by_cases hi : i < 40
  · by_cases hg : c.grids ≤ i
    · by_cases hs : i < c.grids + c.segments
      · simp [hi, hg, hs, show ¬i < c.grids by omega, show i - c.grids < c.segments by omega]
      · simp [hi, hg, hs, show ¬i < c.grids by omega, show ¬i - c.grids < c.segments by omega]
    · simp [hi, hg, show i < c.grids by omega]
  · simp [hi]

/-- The combined word, bit by bit (R70, R102). -/
theorem combine_getLsbD (c : Config) (g : Nat) (m : Word64) (i : Nat) :
    (combine c g m).getLsbD i =
      (decide (g < c.grids) && decide (i = g) && decide (i < 40) ||
       decide (c.grids ≤ i) && decide (i < c.grids + c.segments) && decide (i < 40) && m.getLsbD (i - c.grids)) := by
  rw [combine, BitVec.getLsbD_or, gridSel_getLsbD, segField_getLsbD]

/-- MASK1 keeps all 20 bits (R23). -/
theorem and_mask1 (w : ChipWord) : w &&& mask1 = w := by
  rw [mask1, show (0xFFFFF#20) = BitVec.allOnes 20 from rfl, BitVec.and_allOnes]

/-- MASK2 has its low max(0, G + S - 20) bits set (R24). -/
theorem mask2_getLsbD (c : Config) (i : Nat) :
    (mask2 c).getLsbD i = (decide (i < 20) && decide (i < c.grids + c.segments - 20)) := by
  rw [mask2, BitVec.getLsbD_ofNat, totalBits, chipOutputs, Nat.testBit_two_pow_sub_one]

/-- word1 is the low 20 bits of the combined word (R103, R104). -/
theorem word1_getLsbD (c : Config) (g : Nat) (m : Word64) (i : Nat) :
    (word1 c g m).getLsbD i = (decide (i < 20) && (combine c g m).getLsbD i) := by
  rw [word1, and_mask1, BitVec.getLsbD_extractLsb', Nat.zero_add]

/-- word2 is the next 20 bits of the combined word, below G + S - 20 (R103, R104). -/
theorem word2_getLsbD (c : Config) (g : Nat) (m : Word64) (i : Nat) :
    (word2 c g m).getLsbD i =
      (decide (i < 20) && decide (i < c.grids + c.segments - 20) && (combine c g m).getLsbD (20 + i)) := by
  rw [word2, BitVec.getLsbD_and, BitVec.getLsbD_extractLsb', mask2_getLsbD]
  cases decide (i < 20) <;> cases (combine c g m).getLsbD (20 + i) <;> simp

/-! ### PACK's response, TRANSFER's D field (R77, R82) -/

theorem wordPair_low (w1 w2 : ChipWord) : (wordPair w1 w2).extractLsb' 0 20 = w1 := by
  apply BitVec.eq_of_getLsbD_eq
  intro i hi
  simp [wordPair, hi, show i < 64 by omega, show i < 32 by omega]

theorem wordPair_high (w1 w2 : ChipWord) : (wordPair w1 w2).extractLsb' 32 20 = w2 := by
  apply BitVec.eq_of_getLsbD_eq
  intro i hi
  simp [wordPair, hi, show 32 + i < 64 by omega, BitVec.getLsbD_of_ge w1 (32 + i) (by omega)]

theorem wordPair_gap (w1 w2 : ChipWord) : (wordPair w1 w2).extractLsb' 20 12 = 0#12 := by
  apply BitVec.eq_of_getLsbD_eq
  intro i hi
  simp [wordPair, hi, show 20 + i < 64 by omega, show 20 + i < 32 by omega]

theorem wordPair_top (w1 w2 : ChipWord) : (wordPair w1 w2).extractLsb' 52 12 = 0#12 := by
  apply BitVec.eq_of_getLsbD_eq
  intro i hi
  simp [wordPair, hi, show 52 + i < 64 by omega,
    BitVec.getLsbD_of_ge w1 (52 + i) (by omega), BitVec.getLsbD_of_ge w2 (52 + i - 32) (by omega)]

end Sys2Proof.Machine
end

