-- ==== Sys2Proof/Laws/PerInstr.lean ====
section
/-! SUPPORT. Facts about each command as syntax, one lemma per constructor. -/

namespace Sys2Proof.Laws.EncodedFields

/-- The word of a command carries the command's opcode (R76), and its field Z is zero (R77). -/
def Statement (i : Instr) : Prop := opField (encode i) = i.opcode ∧ zField (encode i) = 0

theorem pack (g : BitVec 8) (mask : Word64) : Statement (.pack g mask) := ⟨opField_layOut .., zField_layOut ..⟩
theorem tick (now : Word64) : Statement (.tick now) := ⟨opField_layOut .., zField_layOut ..⟩
theorem transfer (w1 w2 : ChipWord) : Statement (.transfer w1 w2) := ⟨opField_layOut .., zField_layOut ..⟩
theorem setDwell (d : Word64) : Statement (.setDwell d) := ⟨opField_layOut .., zField_layOut ..⟩
theorem getDwell : Statement .getDwell := ⟨opField_layOut .., zField_layOut ..⟩
theorem clear : Statement .clear := ⟨opField_layOut .., zField_layOut ..⟩
theorem setSegment (g s : BitVec 8) (v : Bool) : Statement (.setSegment g s v) := ⟨opField_layOut .., zField_layOut ..⟩
theorem setGrid (g : BitVec 8) (mask : Word64) : Statement (.setGrid g mask) := ⟨opField_layOut .., zField_layOut ..⟩
theorem readGrid (g : BitVec 8) : Statement (.readGrid g) := ⟨opField_layOut .., zField_layOut ..⟩
theorem getBrightness : Statement .getBrightness := ⟨opField_layOut .., zField_layOut ..⟩

end Sys2Proof.Laws.EncodedFields
end

