-- ==== Sys2Proof/Laws/Step.lean ====
section
/-! SUPPORT. What a step does with the command port, and that executing a command neither reads nor writes it. -/

namespace Sys2Proof.Machine

/-- A block with a word waiting decodes that word and executes it or refuses it (R203). -/
theorem step_head {s : State} {w : CommandWord} {rest : List CommandWord} (hp : s.pending = w :: rest) :
    step s = match decode s.cfg.timerWidth w with
      | .ok i => exec i { s with pending := rest }
      | .error e => .refused (refusalOf e) := by
  rw [show ({ s with pending := rest } : State) = takeCommand s by simp [takeCommand, hp]]
  cases hd : decode s.cfg.timerWidth w <;> simp [step, hp, hd]

/-- The same step with the marks it sets (R38). -/
theorem stepMarked_head {s : State} {w : CommandWord} {rest : List CommandWord} (hp : s.pending = w :: rest) :
    stepMarked s = match decode s.cfg.timerWidth w with
      | .ok i => execMarked i { s with pending := rest }
      | .error e => markRefused (refusalOf e) { s with pending := rest } := by
  rw [show ({ s with pending := rest } : State) = takeCommand s by simp [takeCommand, hp]]
  cases hd : decode s.cfg.timerWidth w <;> simp [stepMarked, hp, hd]

/-- Issuing words one after the other puts them behind those waiting. -/
theorem issue_foldl (ws : List CommandWord) (s : State) :
    ws.foldl (fun t w => issue w t) s = { s with pending := s.pending ++ ws } := by
  induction ws generalizing s with
  | nil => simp
  | cons w ws ih => rw [List.foldl_cons, ih]; simp [issue]

/-- The state with other words waiting and other marks: what no command reads and none writes (R38, R243). -/
def withPortAndMarks (p : List CommandWord) (f : Option Fault) (r : Option Refusal) (s : State) : State :=
  { s with pending := p, faulted := f, refused := r }

/-- No command reads the command port or a mark: executing one with other words waiting and other marks gives the same, with
those words and marks. -/
theorem exec_withPortAndMarks (i : Instr) (s : State) (p : List CommandWord) (f : Option Fault) (r : Option Refusal) :
    exec i (withPortAndMarks p f r s) = match exec i s with
      | .next t => .next (withPortAndMarks p f r t)
      | .fault x => .fault x
      | .refused x => .refused x := by
  cases i with
  | tick now =>
    simp only [exec]
    cases ha : advances s now with
    | false => rw [execTick_waits ha, execTick_waits (show advances (withPortAndMarks p f r s) now = false from ha)]
    | true =>
      have ha' : advances (withPortAndMarks p f r s) now = true := ha
      cases hp : s.cfg.transportPresent with
      | false => rw [execTick_faults ha hp, execTick_faults ha' hp]
      | true =>
        rw [execTick_advances ha hp, execTick_advances ha' hp, scanned_eq, scanned_eq]
        rfl
  | transfer w1 w2 =>
    simp only [exec, execTransfer]
    cases hp : s.cfg.transportPresent with
    | false => rw [doTransfer_absent hp, doTransfer_absent (s := withPortAndMarks p f r s) hp]
    | true =>
      rw [doTransfer_present hp, doTransfer_present (s := withPortAndMarks p f r s) hp]
      rfl
  | clear =>
    simp only [exec, execClear]
    congr 1
    rw [clearBelow_eq s.cfg.grids s, clearBelow_eq]
    simp only [withPortAndMarks]
    congr 1
    induction s.cfg.grids with
    | zero => rfl
    | succ n ih => rw [clearBelow, clearBelow, memWrite_seg, memWrite_seg, ih]
  | setSegment g sg v =>
    simp only [exec]
    by_cases hc : g.toNat < s.cfg.grids ∧ sg.toNat < s.cfg.segments
    · rw [execSetSegment_in hc.1 hc.2, execSetSegment_in (s := withPortAndMarks p f r s) hc.1 hc.2]
      rfl
    · rw [execSetSegment_out hc, execSetSegment_out (s := withPortAndMarks p f r s) hc]
  | setGrid g m =>
    simp only [exec]
    by_cases hc : g.toNat < s.cfg.grids
    · rw [execSetGrid_in hc, execSetGrid_in (s := withPortAndMarks p f r s) hc]
      rfl
    · rw [execSetGrid_out hc, execSetGrid_out (s := withPortAndMarks p f r s) hc]
  | pack g m => rfl
  | setDwell d => rfl
  | getDwell => rfl
  | readGrid g => rfl
  | getBrightness => rfl

/-- No command reads the command port. -/
theorem exec_pending (i : Instr) (s : State) (p : List CommandWord) :
    exec i { s with pending := p } = match exec i s with
      | .next t => .next { t with pending := p }
      | .fault r => .fault r
      | .refused r => .refused r := by
  rw [show ({ s with pending := p } : State) = withPortAndMarks p s.faulted s.refused s from rfl, exec_withPortAndMarks]
  cases h : exec i s with
  | next t =>
    have hm : t.faulted = s.faulted ∧ t.refused = s.refused := by
      rcases exec_next h with rfl | ⟨v, rfl⟩ | ⟨d, -, rfl⟩ | ⟨-, rfl⟩ | ⟨g, v, -, rfl, -⟩ | ⟨w1, w2, -, -, rfl⟩ |
        ⟨now, -, -, -, rfl⟩
      all_goals first | exact ⟨rfl, rfl⟩ | skip
      · rw [clearBelow_eq]; exact ⟨rfl, rfl⟩
      · rw [sendFrame_eq]; exact ⟨rfl, rfl⟩
      · rw [scanned_eq]; exact ⟨rfl, rfl⟩
    rw [← hm.1, ← hm.2]
    rfl
  | fault r => rfl
  | refused r => rfl

end Sys2Proof.Machine
end

