-- ==== Sys2Proof/Tests/Slice0.lean ====
section
/-! SUPPORT. The model's own tests. Every expected result stands in spec/95_test_vectors.md under the id in the test's
comment, or follows by hand from the rule named there. Then one witness for each statement that has hypotheses. -/

namespace Sys2Proof.Tests

open Sys2Proof.Machine

/-! ### Well-formedness refuses an ill-formed term -/

/-- R83: now ≥ 2^TW. -/
theorem test_wf_refuses_wide_now : (Instr.tick 0x100000000).wf 32 = false := by decide

/-- R83: d ≥ 2^TW. -/
theorem test_wf_refuses_wide_dwell : (Instr.setDwell 0x10000).wf 16 = false := by decide

/-- The widest timer operand fits. -/
theorem test_wf_takes_widest_now : (Instr.tick 0xFFFFFFFF).wf 32 = true := by decide

/-! ### Decoding: words from the spec's tables -/

/-- P2. -/
theorem test_decode_pack : decode 32 0x00000000000000200000000000000031#128 = .ok (.pack 3 0x20) := by decide

/-- T2. -/
theorem test_decode_tick : decode 32 0x00000000000007D00000000000000002#128 = .ok (.tick 2000) := by decide

/-- X1. -/
theorem test_decode_transfer : decode 32 0x00012345000ABCDE0000000000000003#128 = .ok (.transfer 0xABCDE 0x12345) := by
  decide

/-- W4. -/
theorem test_decode_setDwell : decode 32 0x00000000FFFFFFFF0000000000000004#128 = .ok (.setDwell 0xFFFFFFFF) := by decide

/-- W1. -/
theorem test_decode_getDwell : decode 32 0x5#128 = .ok .getDwell := by decide

/-- C13. -/
theorem test_decode_clear : decode 32 0x6#128 = .ok .clear := by decide

/-- C1 and C7. -/
theorem test_decode_setSegment :
    decode 32 0x105037#128 = .ok (.setSegment 3 5 true) ∧ decode 32 0x1FFFF7#128 = .ok (.setSegment 255 255 true) := by
  decide

/-- C8. -/
theorem test_decode_setGrid : decode 32 0x00000000000001A50000000000000028#128 = .ok (.setGrid 2 0x1A5) := by decide

/-- C12. -/
theorem test_decode_readGrid : decode 32 0xC89#128 = .ok (.readGrid 200) := by decide

/-- C14. -/
theorem test_decode_getBrightness : decode 32 0xA#128 = .ok .getBrightness := by decide

/-- E1, E2, E3. -/
theorem test_decode_reserved_opcodes :
    decode 32 0x0#128 = .error .reservedOpcode ∧ decode 32 0xB#128 = .error .reservedOpcode ∧
    decode 32 0xFFFFFFFFFFFFFFFFFFFFFFFFFFFFFFFF#128 = .error .reservedOpcode := by decide

/-- E4, E5, C15, X7, X8, and the refused PACK words of 2.2. -/
theorem test_decode_nonzero_reserved :
    [0x1A#128, 0x80000000000000000000000000000000 ||| 0x6#128, 0x8000000000000006#128, 0x00000000000000010000000000000006#128,
      0x00000000001000000000000000000003#128, 0x00100000000000000000000000000003#128, 0x00000000000000200000000000001031#128,
      0x00000000000000200000000000100031#128, 0x00000000000000200000000000200031#128].all
      (fun w => decode 32 w == .error .nonzeroReservedField) = true := by decide

/-- 2.3: the word that is refused at TW = 32 and a TICK at TW = 64. -/
theorem test_decode_timer_width :
    decode 32 0x00000001000000000000000000000002#128 = .error .nonzeroReservedField ∧
    decode 64 0x00000001000000000000000000000002#128 = .ok (.tick 0x100000000) := by decide

/-- R83's example, from its text to its word. -/
theorem test_assemble_line :
    (assembleLine Config.specialised "SET_SEGMENT 3, 5, 1   ; a comment".toList).map (·.map encode)
      = .ok [0x00000000000000000000000000105037#128] ∧
    assembleLine Config.specialised "SET_SEGMENT 3, 5, 2".toList = .error .operandRange := by decide

/-! ### States -/

/-- The specialised block with given grids, segments and chips. -/
def layout (g s n : Nat) : Config := { Config.specialised with grids := g, segments := s, chips := n }

/-- A block of a layout, right after construction. -/
def fresh (g s n : Nat) : State := constructed (layout g s n)

/-- A specialised block in the middle of a run. -/
def busy : State :=
  { State.reset with
    seg := [(1, 0x1FFFFF), (3, 0x20)]
    cursor := 6
    lastTs := 0xFFFFFF00
    trace := frame Config.specialised 0xABCDE 0x12345
    responses := [0x20] }

/-- The same block with no transport. -/
def dark : State := { busy with cfg := { Config.specialised with transportPresent := false } }

/-- The state after the step, marks included, of one command word. -/
def after (w : CommandWord) (s : State) : State := stepMarked (s.withFetchWord 128 w.toNat)

/-! ### Construction -/

/-- 2.1: the valid and the refused configurations, and their masks. -/
theorem test_construction_table :
    [layout 7 21 2, layout 4 8 1, layout 16 4 1, layout 10 11 2, layout 16 24 2, layout 4 8 2].all validConfig = true ∧
    [layout 7 21 1, layout 16 25 2, layout 1 64 2, layout 17 1 1, layout 0 5 1, layout 7 21 3].any validConfig = false ∧
    mask1 = 0xFFFFF ∧ mask2 (layout 7 21 2) = 0xFF ∧ mask2 (layout 10 12 2) = 0x3 ∧ mask2 (layout 16 4 1) = 0 ∧
    mask2 (layout 16 24 2) = 0xFFFFF := by decide

/-- The reset state is the construction of the specialised variant (8 of 10_state.md). -/
theorem test_reset_is_construction : constructed Config.specialised = State.reset := by decide

/-! ### Commands -/

/-- P5, P6, P10, P16. -/
theorem test_pack_words :
    (after 0xFFFFFFFFFFFFFFFF0000000000000061#128 busy).responses = [0x20, 0x000000FF000FFFC0] ∧
    (after 0x00000000000000010000000000000071#128 busy).responses = [0x20, 0x80] ∧
    (after 0x00000000001000000000000000000001#128 busy).responses = [0x20, 0x0000008000000001] ∧
    (after 0x00000000008000000000000000000001#128 (fresh 16 24 2)).responses = [0x0008000000000001] := by decide

/-- T1, T2. -/
theorem test_tick_dwell_edge :
    after 0x00000000000007CF0000000000000002#128 State.reset = State.reset ∧
    after 0x00000000000007D00000000000000002#128 State.reset =
      { State.reset with
        cursor := 1, lastTs := 2000
        trace := [.loadSet false, .shiftByte 0, .shiftByte 0, .shiftByte 2, .shiftByte 0, .shiftByte 0, .shiftByte 0,
          .loadSet true] } := by decide

/-- S8 (the timer wraps) and T12 (the cursor wraps from 6 to 0), from `busy`, whose grid 0 is dark. -/
theorem test_tick_wraps :
    (after 0x00000000000007000000000000000002#128 busy).cursor = 0 ∧
    (after 0x00000000000007000000000000000002#128 busy).lastTs = 0x700 ∧
    (after 0x00000000000007000000000000000002#128 busy).trace = busy.trace ++
      [.loadSet false, .shiftByte 0, .shiftByte 0, .shiftByte 1, .shiftByte 0, .shiftByte 0, .shiftByte 0,
        .loadSet true] := by decide

/-- X1. -/
theorem test_transfer_two_chips :
    (after 0x00012345000ABCDE0000000000000003#128 State.reset).trace =
      [.loadSet false, .shiftByte 0x0A, .shiftByte 0xBC, .shiftByte 0xDE, .shiftByte 0x01, .shiftByte 0x23,
        .shiftByte 0x45, .loadSet true] := by decide

/-- X4: one chip, w2 ignored. -/
theorem test_transfer_one_chip :
    (after 0x000FFFFF000123450000000000000003#128 (fresh 4 8 1)).trace =
      [.loadSet false, .shiftByte 0x01, .shiftByte 0x23, .shiftByte 0x45, .loadSet true] := by decide

/-- T15 and X6: no transport. -/
theorem test_no_transport :
    (after 0x00000000000007000000000000000002#128 dark).faulted = some .transportUnavailable ∧
    (after 0x00000000000007000000000000000002#128 dark).cursor = 0 ∧
    (after 0x00000000000007000000000000000002#128 dark).lastTs = 0xFFFFFF00 ∧
    (after 0x00000000000007000000000000000002#128 dark).trace = dark.trace ∧
    after 0x00000001000000010000000000000003#128 dark = { dark with faulted := some .transportUnavailable } := by decide

/-- W2's first word, and W3. -/
theorem test_setDwell :
    after 0x00000000000001F40000000000000004#128 busy = { busy with dwell := 500 } ∧
    (after 0x4#128 busy).dwell = 0 := by decide

/-- W1. -/
theorem test_getDwell : (after 0x5#128 State.reset).responses = [0x7D0] := by decide

/-- C13. -/
theorem test_clear : after 0x6#128 busy = { busy with seg := [] } := by decide

/-- C4 on an entry of 0x21, and C3. -/
theorem test_setSegment :
    (after 0x37#128 { busy with seg := [(1, 7), (3, 0x21), (4, 9)] }).seg = [(1, 7), (3, 0x20), (4, 9)] ∧
    (after 0x5037#128 busy).seg = [(1, 0x1FFFFF)] := by decide

/-- C5, C6, C7. -/
theorem test_setSegment_ignored :
    after 0x115037#128 busy = busy ∧ after 0x100077#128 busy = busy ∧ after 0x1FFFF7#128 busy = busy := by decide

/-- C8, C9. -/
theorem test_setGrid :
    (after 0x00000000000001A50000000000000028#128 (fresh 4 8 1)).seg = [(2, 0xA5)] ∧
    after 0x00000000000000FF0000000000000078#128 busy = busy := by decide

/-- C11, C12. -/
theorem test_readGrid :
    (after 0x39#128 busy).responses = [0x20, 0x20] ∧ after 0xC89#128 busy = { busy with responses := [0x20, 0] } := by
  decide

/-- C14, with b = 0x5A. -/
theorem test_getBrightness : (after 0xA#128 { busy with brightness := 0x5A }).responses = [0x20, 0x5A] := by decide

/-- C16: DISPLAY_STRING on four grids, with a font of two letters and a space that has a pattern. -/
theorem test_displayString :
    displayString { layout 4 8 1 with font := [('A', 0x77), ('B', 0x7C), (' ', 1)] } ['a', 'b'] =
      [.setGrid 0 0x77, .setGrid 1 0x7C, .setGrid 2 1, .setGrid 3 1] := by decide

/-- Program 5: a refused word sets the mark and changes nothing else. -/
theorem test_refused_word :
    after 0x00000000000000010000000000102007#128 { busy with seg := [(0, 2)] } =
      { busy with seg := [(0, 2)], refused := some .nonzeroReservedField } := by decide

/-- R38, R243: after a refused word and a faulting TICK the block goes on, both marks kept with their first reason. -/
theorem test_marked_block_goes_on :
    runWords [0x0#128, 0x1A#128, 0x00000000000007000000000000000002#128, 0x5#128] dark =
      { dark with
        cursor := 0
        responses := [0x20, 2000]
        refused := some .reservedOpcode
        faulted := some .transportUnavailable } := by decide

/-- R205, log 18: a request for a stubbed feature sets the mark and issues nothing. -/
theorem test_feature_request :
    requestMarked (.feature .colon) busy = { busy with refused := some (.unimplementedFeature .colon) } := by decide

/-- Log 14: a `;` inside the quotes is text, one after them a comment. -/
theorem test_semicolon_in_text :
    assembleLine { layout 2 8 1 with font := [(';', 3)] } "DISPLAY_STRING \"A;\" ; c".toList =
      .ok [.setGrid 0 0, .setGrid 1 3] := by decide

/-- R74, X1's first word: the stream 0000 1010 1011 1100 1101 1110. -/
theorem test_serial_bits :
    serialBits ((wordBytes 0xABCDE).map .shiftByte) =
      [false, false, false, false, true, false, true, false, true, false, true, true, true, true, false, false,
       true, true, false, true, true, true, true, false] := by decide

/-! ### Witnesses: states and operands that meet the hypotheses of the statements -/

/-- `busy` meets the invariant: EveryStepKeepsTheInvariant and every statement that assumes it. -/
theorem witness_inv_busy : Inv busy where
  cfgValid := by decide
  storeWf := by decide
  storeIndex := by decide
  storeBits := by decide
  cursorIn := by decide
  lastTsFits := by decide
  dwellFits := by decide
  brightnessKept := by decide
  clkKept := by decide
  blankKept := by decide
  schedIdle := by decide
  loadLevel := by decide
  wholeFrames := ⟨[(0xABCDE, 0x12345)], by decide⟩

/-- `dark` meets it too: the clauses of the statements about a missing transport. -/
theorem witness_inv_dark : Inv dark where
  cfgValid := by decide
  storeWf := by decide
  storeIndex := by decide
  storeBits := by decide
  cursorIn := by decide
  lastTsFits := by decide
  dwellFits := by decide
  brightnessKept := by decide
  clkKept := by decide
  blankKept := by decide
  schedIdle := by decide
  loadLevel := by decide
  wholeFrames := ⟨[(0xABCDE, 0x12345)], by decide⟩

/-- EveryStepKeepsTheInvariant: `busy` with a TICK waiting that advances. -/
theorem witness_EveryStepKeepsTheInvariant :
    step { busy with pending := [0x00000000000007000000000000000002#128] } = .next (scanned 0x700 busy) := rfl

/-- DecodeOfEncodeIsTheCommand, at the widest timer operand. -/
theorem witness_DecodeOfEncodeIsTheCommand :
    (Instr.tick 0xFFFFFFFF).wf 32 = true ∧ (Instr.setDwell 0xFFFFFFFFFFFFFFFF).wf 64 = true := by decide

/-- EncodeOfDecodeIsTheWord. -/
theorem witness_EncodeOfDecodeIsTheWord :
    decode 32 0x000FFFFF000FFFC00000000000000003#128 = .ok (.transfer 0xFFFC0 0xFFFFF) := by decide

/-- ReservedOpcodeIsRefused, at both ends of the reserved range. -/
theorem witness_ReservedOpcodeIsRefused :
    ({ busy with pending := [0xB#128, 0x5#128] } : State).pending = 0xB#128 :: [0x5#128] ∧ (opField 0x0#128).toNat = 0x0 ∧
    0xB ≤ (opField 0xB#128).toNat ∧ 0xB ≤ (opField 0xF#128).toNat := by decide

/-- NonzeroReservedFieldIsRefused: PACK with bit 12 set, TICK with bit 96 set, and a TICK whose bit 95 is set, which is a
bit of its operand. -/
theorem witness_NonzeroReservedFieldIsRefused :
    (mustBeZero 32 (opField 0x1001#128).toNat 12 ∧ (0x1001#128).getLsbD 12 = true) ∧
    (mustBeZero 32 (opField 0x00000001000000000000000000000002#128).toNat 96 ∧
      (0x00000001000000000000000000000002#128).getLsbD 96 = true) ∧
    (∀ i, i < 128 → mustBeZero 32 (opField 0x00000000800000000000000000000002#128).toNat i →
      (0x00000000800000000000000000000002#128).getLsbD i = false) := by
  refine ⟨⟨by simp [mustBeZero, opField], by decide⟩, ⟨by simp [mustBeZero, opField], by decide⟩, ?_⟩
  intro i hi hm
  have hb : ∀ j : Fin 128, j.val ≠ 1 → j.val ≠ 95 → (0x00000000800000000000000000000002#128).getLsbD j.val = false := by
    decide
  have ho : (opField 0x00000000800000000000000000000002#128).toNat = 2 := by decide
  rw [ho] at hm
  simp only [mustBeZero] at hm
  exact hb ⟨i, hi⟩ (by simp only; omega) (by simp only; omega)

/-- StepRunsTheDecodedCommand. -/
theorem witness_StepRunsTheDecodedCommand :
    ({ busy with pending := [0x105037#128] } : State).pending = 0x105037#128 :: [] ∧
    decode busy.cfg.timerWidth 0x105037#128 = .ok (.setSegment 3 5 true) := by decide

/-- NothingHappensWithoutACommand. -/
theorem witness_NothingHappensWithoutACommand : busy.pending = [] := by decide

/-- MarksAreNeverCleared, each mark. -/
theorem witness_MarksAreNeverCleared :
    ({ busy with faulted := some .transportUnavailable } : State).faulted = some .transportUnavailable ∧
    ({ busy with refused := some .reservedOpcode } : State).refused = some .reservedOpcode := by decide

/-- NoStateIsTerminal: a step that completes, one that faults and one that is refused. -/
theorem witness_NoStateIsTerminal :
    step { busy with pending := [0x6#128] } = .next { busy with seg := [] } ∧
    step { dark with pending := [0x00000001000000010000000000000003#128] } = .fault .transportUnavailable ∧
    step { busy with pending := [0xB#128] } = .refused .reservedOpcode := ⟨rfl, rfl, rfl⟩

/-- CommandsRunInTheOrderIssued: two commands from `busy`. -/
theorem witness_CommandsRunInTheOrderIssued :
    unmarked busy = true ∧ busy.pending = [] ∧
    (∀ i ∈ [Instr.setDwell 500, Instr.getDwell], i.wf busy.cfg.timerWidth = true) ∧
    execAll [.setDwell 500, .getDwell] busy = .next { busy with dwell := 500, responses := [0x20, 500] } :=
  ⟨by decide, by decide, by decide, rfl⟩

/-- ConstructionGivesTheResetState: a configuration inside the ranges and one outside, where the capacity is met exactly and
exceeded by one. -/
theorem witness_ConstructionGivesTheResetState :
    validConfig (layout 16 24 2) = true ∧ validConfig (layout 16 25 2) = false := by decide

/-- ConstructionEstablishesTheInvariant. -/
theorem witness_ConstructionEstablishesTheInvariant :
    construct (layout 16 24 2) = .next (constructed (layout 16 24 2)) := rfl

/-- AStopChangesOnlyThePortAMarkAndAFaultingTicksScan: each of the three stops. -/
theorem witness_AStop :
    step { busy with pending := [0xB#128] } = .refused .reservedOpcode ∧
    step { dark with pending := [0x00000001000000010000000000000003#128] } = .fault .transportUnavailable ∧
    step { dark with pending := [0x00000000000007000000000000000002#128] } = .fault .transportUnavailable :=
  ⟨rfl, rfl, rfl⟩

/-- NoCommandWritesWhatIsFixed, TheTraceGrowsByWholeFrames: an advancing TICK. -/
theorem witness_exec_tick_next : exec (.tick 0x700) busy = .next (scanned 0x700 busy) := rfl

/-- EachPieceOfStateHasItsWriters: commands that meet the clauses' hypotheses. -/
theorem witness_EachPieceOfStateHasItsWriters :
    exec (.setDwell 500) busy = .next { busy with dwell := 500 } ∧
    exec .clear busy = .next { busy with seg := [] } ∧ exec .getDwell busy = .next { busy with responses := [0x20, 2000] } :=
  ⟨rfl, rfl, rfl⟩

/-- FourCommandsRespondAndOnlyRespond: both values. -/
theorem witness_FourCommandsRespondAndOnlyRespond :
    responds (.readGrid 3) = true ∧ responds .clear = false ∧ exec .clear busy = .next { busy with seg := [] } :=
  ⟨rfl, rfl, rfl⟩

/-- EveryCommandCompletes: with the transport, and the fault without it. -/
theorem witness_EveryCommandCompletes :
    busy.cfg.transportPresent = true ∧ exec (.transfer 1 1) dark = .fault .transportUnavailable := ⟨rfl, rfl⟩

/-- DerivedConstants, CombinedWordLayout, ChipWordsSplitTheCombinedWord, PackerLaws: valid layouts at G + S = 20, 28 and
40, and the bits where the clauses of the layout meet (G - 1, G, G + S - 1, G + S for G = 7, S = 21). -/
theorem witness_packer_layouts :
    validConfig (layout 16 4 1) = true ∧ validConfig (layout 7 21 2) = true ∧ validConfig (layout 16 24 2) = true ∧
    (combine (layout 7 21 2) 6 0x1FFFFF).getLsbD 6 = true ∧ (combine (layout 7 21 2) 6 0x1FFFFE).getLsbD 7 = false ∧
    (combine (layout 7 21 2) 6 0x1FFFFF).getLsbD 27 = true ∧ (combine (layout 7 21 2) 6 0x3FFFFF).getLsbD 28 = false := by
  decide

/-- PackIsPure: two blocks of one layout in different states. -/
theorem witness_PackIsPure :
    busy.cfg.grids = (fresh 7 21 2).cfg.grids ∧ busy.cfg.segments = (fresh 7 21 2).cfg.segments ∧ busy ≠ fresh 7 21 2 := by
  decide

/-- ElapsedTimeWrapsAround, at the widest timer. -/
theorem witness_ElapsedTimeWrapsAround : (layout 7 21 2).timerWidth ≤ 64 := by decide

/-- TickBeforeTheDwellDoesNothing, one below the dwell (T4's state: elapsed 0x7CF). -/
theorem witness_TickBeforeTheDwellDoesNothing : (elapsed busy 0x6CF).toNat < busy.dwell.toNat := by decide

/-- TickScansTheNextGridAfterTheDwell, CursorAdvancesModuloG: exactly the dwell, with the transport and without. -/
theorem witness_TickScansTheNextGridAfterTheDwell :
    (0x6D0#64).toNat < 2 ^ busy.cfg.timerWidth ∧ busy.dwell.toNat ≤ (elapsed busy 0x6D0).toNat ∧
    busy.cfg.transportPresent = true ∧ dark.dwell.toNat ≤ (elapsed dark 0x6D0).toNat ∧
    dark.cfg.transportPresent = false := by decide

/-- TickWithoutTransportFaults, TransferWithoutTransportFaults. -/
theorem witness_WithoutTransport :
    dark.cfg.transportPresent = false ∧ dark.dwell.toNat ≤ (elapsed dark 0x6D0).toNat := by decide

/-- SetDwellWritesDwell, at both ends of the range. -/
theorem witness_SetDwellWritesDwell :
    (0#64).toNat < 2 ^ busy.cfg.timerWidth ∧ (0xFFFFFFFF#64).toNat < 2 ^ busy.cfg.timerWidth := by decide

/-- NewDwellHoldsFromTheNextTick: elapsed 2000 against a new dwell of 2001 and of 2000. -/
theorem witness_NewDwellHoldsFromTheNextTick :
    exec (.setDwell 2001) busy = .next { busy with dwell := 2001 } ∧ (elapsed busy 0x6D0).toNat < (2001#64).toNat ∧
    (2000#64).toNat ≤ (elapsed busy 0x6D0).toNat := ⟨rfl, by decide, by decide⟩

/-- TicksADwellApartAllAdvance: gaps of exactly the dwell, across the timer's wrap. -/
theorem witness_TicksADwellApartAllAdvance :
    spaced busy.dwell.toNat (2 ^ busy.cfg.timerWidth) [0x1000006D0, 0x1000006D0 + 2000, 0x1000006D0 + 4000] ∧
    busy.dwell.toNat ≤ (elapsed busy (BitVec.ofNat 64 (0x1000006D0 % 2 ^ busy.cfg.timerWidth))).toNat := by
  refine ⟨⟨?_, ?_, ?_, ?_, trivial⟩, ?_⟩ <;> decide

/-- The commands that stand between two advances in the next witness: a TICK that waits, two SET_DWELLs and a CLEAR. -/
def between : List Instr := [.tick 0x6D1, .setDwell 9, .clear, .setDwell 500]

/-- AdvancesAreADwellApart: an advance, the commands of `between`, and an advance exactly the new dwell later. -/
theorem witness_AdvancesAreADwellApart :
    validConfig busy.cfg = true ∧ (∀ i ∈ between, i.wf busy.cfg.timerWidth = true) ∧
    exec (.tick 0x6D0) busy = .next (scanned 0x6D0 busy) ∧ (scanned 0x6D0 busy).trace ≠ busy.trace ∧
    execAll between (scanned 0x6D0 busy) = .next { scanned 0x6D0 busy with seg := [], dwell := 500 } ∧
    advanceCount busy.cfg.timerWidth busy.dwell 0x6D0 between = 0 ∧ dwellInForce between busy.dwell = 500 ∧
    exec (.tick 0x8C4) { scanned 0x6D0 busy with seg := [], dwell := 500 } =
      .next (scanned 0x8C4 { scanned 0x6D0 busy with seg := [], dwell := 500 }) ∧
    (scanned 0x8C4 { scanned 0x6D0 busy with seg := [], dwell := 500 }).trace ≠
      ({ scanned 0x6D0 busy with seg := [], dwell := 500 } : State).trace :=
  ⟨by decide, by decide, rfl, by decide, rfl, by decide, by decide, rfl, by decide⟩

/-- TicksScanTheGridsInRotation: of three TICKs the first and the third advance, one of them exactly the dwell after the
other, the second one early. -/
theorem witness_TicksScanTheGridsInRotation :
    advanceCount busy.cfg.timerWidth busy.dwell busy.lastTs [.tick 0x700, .tick 0xECF, .tick 0xED0] = 2 := by decide

/-- CursorAdvancesModuloG with G = 1: the cursor is 0 before and after. -/
theorem witness_CursorAdvancesModuloG_oneGrid :
    Inv (fresh 1 8 1) ∧ (fresh 1 8 1).dwell.toNat ≤ (elapsed (fresh 1 8 1) 2000).toNat ∧
    exec (.tick 2000) (fresh 1 8 1) = .next (scanned 2000 (fresh 1 8 1)) ∧ (fresh 1 8 1).cfg.grids = 1 where
  left :=
    { cfgValid := by decide, storeWf := by decide, storeIndex := by decide, storeBits := by decide, cursorIn := by decide
      lastTsFits := by decide, dwellFits := by decide, brightnessKept := by decide, clkKept := by decide
      blankKept := by decide, schedIdle := by decide, loadLevel := by decide, wholeFrames := ⟨[], rfl⟩ }
  right := ⟨by decide, rfl, rfl⟩

/-- TransferSendsTheFrame, SerialBitsOfAFrame: two chips, one chip. -/
theorem witness_TransferSendsTheFrame :
    busy.cfg.transportPresent = true ∧ busy.cfg.chips = 2 ∧ (fresh 4 8 1).cfg.transportPresent = true ∧
    (fresh 4 8 1).cfg.chips ≠ 2 := by decide

/-- PackFeedsTransfer. -/
theorem witness_PackFeedsTransfer :
    exec (.pack 6 0x1FFFFF) busy = .next { busy with responses := [0x20, 0x000000FF000FFFC0] } := rfl

/-- ClearZeroesEveryEntry, SetSegmentChangesOneBit, SetGridReplacesOneEntry, ReadGridResponds: indices at both sides of
their bounds. -/
theorem witness_store_commands :
    busy.seg.wf ∧ validConfig busy.cfg = true ∧ (6#8).toNat < busy.cfg.grids ∧ busy.cfg.grids ≤ (7#8).toNat ∧
    (20#8).toNat < busy.cfg.segments ∧ busy.cfg.segments ≤ (21#8).toNat := by decide

/-- AfterClearNoSegmentIsPacked. -/
theorem witness_AfterClearNoSegmentIsPacked : exec .clear busy = .next { busy with seg := [] } ∧ 3 < busy.cfg.grids :=
  ⟨rfl, by decide⟩

/-- FontFoldsCaseAndIsBlankElsewhere: a letter with a pattern and one without. -/
theorem witness_FontFoldsCaseAndIsBlankElsewhere :
    hasPattern [('A', 0x77)] 'a' = true ∧ hasPattern [('A', 0x77)] 'q' = false := by decide

/-- AssemblerChecksItsOperands: an accepted line, and operands just outside their fields. -/
theorem witness_AssemblerChecksItsOperands :
    assemble 32 "TICK".toList [0xFFFFFFFF] = .ok (.tick 0xFFFFFFFF) ∧ 255 < 256 ∧ 1 < 2 ∧ 2 ^ 20 ≤ 0x100000 ∧ 2 ^ 64 ≤ 0x10000000000000000 ∧
    2 ^ 32 ≤ 0x100000000 := by decide

/-- BoardsShareNoState: the second of two blocks steps. -/
theorem witness_BoardsShareNoState :
    ([busy, { busy with pending := [0x6#128] }] : Boards)[1]? = some { busy with pending := [0x6#128] } ∧
    step { busy with pending := [0x6#128] } = .next { busy with seg := [] } ∧
    stepBoard 1 [busy, { busy with pending := [0x6#128] }] = .next [busy, { busy with seg := [] }] :=
  ⟨rfl, rfl, rfl⟩

end Sys2Proof.Tests
end

section
/-! SUPPORT. A step runs the command its oldest waiting word decodes to (R17, R58, R203). -/

namespace Sys2Proof.Machine

/-- A command word placed by its number stands, unchanged, before the words already waiting: `CommandWord` is the full
128 bits that `withFetchWord` keeps. -/
@[simp] theorem withFetchWord_commandWord (s : State) (w : CommandWord) :
    s.withFetchWord 128 w.toNat = { s with pending := w :: s.pending } := by
  rw [State.withFetchWord, Nat.mod_eq_of_lt w.isLt, BitVec.ofNat_toNat, BitVec.setWidth_eq]

/-- The decoding branch of `step_head` once the decoder has answered with a command. -/
theorem step_of_decode_ok {s : State} {w : CommandWord} {rest : List CommandWord} {i : Instr}
    (hp : s.pending = w :: rest) (hd : decode s.cfg.timerWidth w = .ok i) :
    step s = exec i { s with pending := rest } := by
  rw [step_head hp, hd]

/-- Settles O7: `step_of_decode_ok` on the state itself, and on the state whose port `withFetchWord` has put the word at
the head of, where taking the word off gives the first state back. -/
theorem stepRunsTheDecodedCommand : Obligations.StepRunsTheDecodedCommand := by
  intro s w rest i hd
  constructor
  · intro hp
    exact step_of_decode_ok hp hd
  · rw [withFetchWord_commandWord]
    exact step_of_decode_ok (s := { s with pending := w :: s.pending }) rfl hd

end Sys2Proof.Machine
end

section
/-! SUPPORT. What each command, each step and each run keeps: the invariant, the marks and the pieces of state a command
does not write (R26 to R38, R142, R243). -/

namespace Sys2Proof.Machine

/-! ### What a command leaves unchanged -/

/-- A command that completes writes no field but the eight listed (R20, R31, R32, R35, R38). -/
theorem exec_next_writes {i : Instr} {s t : State} (h : exec i s = .next t) :
    t = { s with
      seg := t.seg, cursor := t.cursor, lastTs := t.lastTs, dwell := t.dwell, load := t.load, sched := t.sched
      trace := t.trace, responses := t.responses } := by
  rcases exec_next h with rfl | ⟨v, rfl⟩ | ⟨d, -, rfl⟩ | ⟨-, rfl⟩ | ⟨g, v, -, rfl, -⟩ | ⟨w1, w2, -, -, rfl⟩ |
    ⟨now, -, -, -, rfl⟩
  · rfl
  · rfl
  · rfl
  · rw [clearBelow_eq]
  · rfl
  · rw [sendFrame_eq]
  · rw [scanned_eq]

/-- The store is as before unless the command is CLEAR, SET_SEGMENT or SET_GRID (R27). -/
theorem exec_next_seg {i : Instr} {s t : State} (h : exec i s = .next t) (hc : i ≠ .clear)
    (hs : ∀ g sg v, i ≠ .setSegment g sg v) (hg : ∀ g m, i ≠ .setGrid g m) : t.seg = s.seg := by
  cases i with
  | tick now =>
    rcases execTick_next h with ⟨-, rfl⟩ | ⟨-, -, rfl⟩
    · rfl
    · rw [scanned_eq]
  | transfer w1 w2 =>
    obtain ⟨-, rfl⟩ := doTransfer_next h
    rfl
  | clear => exact absurd rfl hc
  | setSegment g sg v => exact absurd rfl (hs g sg v)
  | setGrid g m => exact absurd rfl (hg g m)
  | pack | setDwell | getDwell | readGrid | getBrightness => exact (congrArg State.seg (Host.Outcome.next.inj h)).symm

/-- Settles O16: every field named is one that `exec_next_writes` does not list. -/
theorem noCommandWritesWhatIsFixed : Obligations.NoCommandWritesWhatIsFixed := by
  intro i s t h
  rw [exec_next_writes h]
  exact ⟨rfl, rfl, rfl, rfl, rfl, rfl, rfl⟩

/-- Settles O17: the store by `exec_next_seg`; the other clauses by the kinds of effect of `exec_next`, where the writer of
a field is the command its clause excludes. -/
theorem eachPieceOfStateHasItsWriters : Obligations.EachPieceOfStateHasItsWriters := by
  intro i s t h
  refine ⟨exec_next_seg h, ?_⟩
  rcases exec_next h with rfl | ⟨v, rfl⟩ | ⟨d, rfl, rfl⟩ | ⟨-, rfl⟩ | ⟨g, v, -, rfl, -⟩ | ⟨w1, w2, rfl, -, rfl⟩ |
    ⟨now, rfl, -, -, rfl⟩
  · exact ⟨fun _ => ⟨rfl, rfl, rfl⟩, fun _ => rfl, fun _ _ => ⟨rfl, rfl⟩⟩
  · exact ⟨fun _ => ⟨rfl, rfl, rfl⟩, fun _ => rfl, fun _ _ => ⟨rfl, rfl⟩⟩
  · exact ⟨fun _ => ⟨rfl, rfl, rfl⟩, fun hd => absurd rfl (hd d), fun _ _ => ⟨rfl, rfl⟩⟩
  · rw [clearBelow_eq]
    exact ⟨fun _ => ⟨rfl, rfl, rfl⟩, fun _ => rfl, fun _ _ => ⟨rfl, rfl⟩⟩
  · exact ⟨fun _ => ⟨rfl, rfl, rfl⟩, fun _ => rfl, fun _ _ => ⟨rfl, rfl⟩⟩
  · rw [sendFrame_eq]
    exact ⟨fun _ => ⟨rfl, rfl, rfl⟩, fun _ => rfl, fun _ ht => absurd rfl (ht w1 w2)⟩
  · rw [scanned_eq]
    exact ⟨fun ht => absurd rfl (ht now), fun _ => rfl, fun ht => absurd rfl (ht now)⟩

/-! ### What a step can do, marks included -/

/-- A step that completes found the port empty, or executed a command on the state without its word (R130, R203). -/
theorem step_next {s t : State} (h : step s = .next t) :
    t = s ∨ ∃ i rest, exec i { s with pending := rest } = .next t := by
  cases hp : s.pending with
  | nil =>
    rw [step, hp] at h
    exact .inl (Host.Outcome.next.inj h).symm
  | cons w rest =>
    rw [step_head hp] at h
    cases hd : decode s.cfg.timerWidth w with
    | ok i => exact .inr ⟨i, rest, by simpa only [hd] using h⟩
    | error e => simp [hd] at h

/-- A step does nothing, or executes a command or marks a refusal on the state without its word (R79, R80, R130, R203). -/
theorem stepMarked_cases (s : State) :
    stepMarked s = s ∨
    (∃ i rest, stepMarked s = execMarked i { s with pending := rest }) ∨
    ∃ r rest, stepMarked s = markRefused r { s with pending := rest } := by
  cases hp : s.pending with
  | nil => exact .inl (by rw [stepMarked, hp])
  | cons w rest =>
    rw [stepMarked_head hp]
    cases decode s.cfg.timerWidth w with
    | ok i => exact .inr (.inl ⟨i, rest, rfl⟩)
    | error e => exact .inr (.inr ⟨_, rest, rfl⟩)

/-- A fault leaves what it found, or a scan that was begun and given up (R123, R204). -/
theorem leftByFault_cases (i : Instr) (s : State) : leftByFault i s = s ∨ leftByFault i s = abandonScan s := by
  cases i with
  | tick => exact .inr rfl
  | pack | transfer | setDwell | getDwell | clear | setSegment | setGrid | readGrid | getBrightness => exact .inl rfl

/-- A command executed leaves its next state, or the fault of a transfer without its transport, marked (R144, R205). -/
theorem execMarked_cases (i : Instr) (s : State) :
    exec i s = .next (execMarked i s) ∨ execMarked i s = markFaulted .transportUnavailable (leftByFault i s) := by
  rcases exec_outcome i s with ⟨t, ht⟩ | ⟨-, hf⟩
  · exact .inl (by rw [execMarked, ht])
  · exact .inr (by rw [execMarked, hf])

/-- What every step keeps holds after any number of steps. -/
theorem stepsMarked_induction {P : State → Prop} (hstep : ∀ s, P s → P (stepMarked s)) (n : Nat) {s : State} (h : P s) :
    P (stepsMarked n s) := by
  induction n generalizing s with
  | zero => exact h
  | succ n ih => exact ih (hstep s h)

/-! ### The marks -/

/-- Executing a command keeps a `faulted` mark and its reason (R38). -/
theorem execMarked_keeps_faulted {i : Instr} {s : State} {r : Fault} (h : s.faulted = some r) :
    (execMarked i s).faulted = some r := by
  rcases execMarked_cases i s with hn | hf
  · rw [exec_next_writes hn]
    exact h
  · rcases leftByFault_cases i s with hl | hl <;> simp [hf, hl, h]

/-- Executing a command does not touch the `refused` mark (R38). -/
theorem execMarked_refused (i : Instr) (s : State) : (execMarked i s).refused = s.refused := by
  rcases execMarked_cases i s with hn | hf
  · rw [exec_next_writes hn]
  · rcases leftByFault_cases i s with hl | hl <;> simp [hf, hl]

/-- A step keeps a `faulted` mark and its reason (R38). -/
theorem stepMarked_keeps_faulted {s : State} {r : Fault} (h : s.faulted = some r) :
    (stepMarked s).faulted = some r := by
  rcases stepMarked_cases s with hs | ⟨i, rest, hs⟩ | ⟨e, rest, hs⟩
  · rw [hs, h]
  · exact hs ▸ execMarked_keeps_faulted (s := { s with pending := rest }) h
  · rw [hs, markRefused_faulted, h]

/-- A step keeps a `refused` mark and its reason (R38). -/
theorem stepMarked_keeps_refused {s : State} {r : Refusal} (h : s.refused = some r) :
    (stepMarked s).refused = some r := by
  rcases stepMarked_cases s with hs | ⟨i, rest, hs⟩ | ⟨e, rest, hs⟩
  · rw [hs, h]
  · rw [hs, execMarked_refused, h]
  · rw [hs, markRefused_refused, h, Option.getD_some]

/-- Settles O9: each mark is kept by every step, so by any number of them. -/
theorem marksAreNeverCleared : Obligations.MarksAreNeverCleared := fun _ n =>
  ⟨fun r => stepsMarked_induction (P := fun s => s.faulted = some r) (fun _ => stepMarked_keeps_faulted) n,
    fun r => stepsMarked_induction (P := fun s => s.refused = some r) (fun _ => stepMarked_keeps_refused) n⟩

/-! ### The invariant, operation by operation -/

section Invariant

variable {s : State}

/-- The invariant says nothing of the command port. -/
theorem inv_withPending (h : Inv s) (p : List CommandWord) : Inv { s with pending := p } := { h with }

theorem inv_markFaulted (h : Inv s) (r : Fault) : Inv (markFaulted r s) := { h with }

theorem inv_markRefused (h : Inv s) (r : Refusal) : Inv (markRefused r s) := { h with }

theorem inv_respond (h : Inv s) (v : Word64) : Inv (respond v s) := { h with }

theorem inv_setDwellReg (h : Inv s) (d : Word64) : Inv (setDwellReg d s) :=
  { h with dwellFits := timerBits_lt s.cfg d }

theorem inv_setLastTs (h : Inv s) (now : Word64) : Inv (setLastTs now s) :=
  { h with lastTsFits := timerBits_lt s.cfg now }

/-- A write of an in-range entry whose bits at and above S are clear, as R50 asks of the caller of `memWrite`. -/
theorem inv_memWrite (h : Inv s) {g : Nat} {v : Word64} (hg : g < s.cfg.grids) (hv : v.toNat < 2 ^ s.cfg.segments) :
    Inv (memWrite g v s) :=
  { h with
    storeWf := Memory.write_wf h.storeWf g v
    storeIndex := fun e he => by
      rcases Memory.mem_write he with ⟨rfl, -⟩ | he
      · exact hg
      · exact h.storeIndex e he
    storeBits := fun e he => by
      rcases Memory.mem_write he with ⟨rfl, -⟩ | he
      · exact hv
      · exact h.storeBits e he }

/-- Segment s < S of an entry is set or cleared (R26, R161). -/
theorem putBit_memRead_lt (h : Inv s) (g : Nat) {sg : Nat} (hs : sg < s.cfg.segments) (b : Bool) :
    (putBit (memRead s g) sg b).toNat < 2 ^ s.cfg.segments := by
  have hl := validConfig_layout h.cfgValid
  exact putBit_lt (Memory.read_lt h.storeBits g) hs (by omega) b

theorem inv_clearBelow (h : Inv s) (n : Nat) : Inv (clearBelow n s) := by
  rw [clearBelow_eq]
  exact
    { h with
      storeWf := clearBelow_wf h.storeWf n
      storeIndex := fun e he => h.storeIndex e (clearBelow_mem he)
      storeBits := fun e he => h.storeBits e (clearBelow_mem he) }

/-- A transfer adds one whole frame, so the trace is not empty, and leaves LOAD high (R34, R142). -/
theorem inv_sendFrame (h : Inv s) (w1 w2 : ChipWord) : Inv (sendFrame w1 w2 s) := by
  obtain ⟨ws, hws⟩ := h.wholeFrames
  rw [sendFrame_eq]
  exact
    { h with
      loadLevel := by simp [frame_ne_nil]
      wholeFrames := ⟨ws ++ [(w1, w2)], by simp [hws]⟩ }

/-- The cursor goes to the next grid modulo G, and the scheduler is IDLE again (R36, R122). -/
theorem inv_abandonScan (h : Inv s) : Inv (abandonScan s) := by
  obtain ⟨h1, h16, -⟩ := validConfig_layout h.cfgValid
  have hc : (beginScan s).cursor.toNat < s.cfg.grids := by
    rw [beginScan_cursor_toNat h1 h16]
    exact Nat.mod_lt _ h1
  exact { h with cursorIn := hc, schedIdle := rfl }

/-- A scan as three operations that each keep the invariant: neither the transfer nor the write of `last_ts` reads the
scheduler's state, which may be IDLE before them as well as after (R123). -/
theorem scanned_eq_setLastTs (now : Word64) (s : State) :
    scanned now s =
      setLastTs now (sendFrame (cursorWords (beginScan s)).1 (cursorWords (beginScan s)).2 (abandonScan s)) := by
  rw [scanned_eq, sendFrame_eq]
  rfl

theorem inv_scanned (h : Inv s) (now : Word64) : Inv (scanned now s) := by
  rw [scanned_eq_setLastTs]
  exact inv_setLastTs (inv_sendFrame (inv_abandonScan h) _ _) now

/-! ### The invariant, command by command and step by step -/

/-- Every command that completes keeps the invariant. -/
theorem inv_exec {i : Instr} {t : State} (h : Inv s) (hn : exec i s = .next t) : Inv t := by
  rcases exec_next hn with rfl | ⟨v, rfl⟩ | ⟨d, -, rfl⟩ | ⟨-, rfl⟩ | ⟨g, v, hg, rfl, hv⟩ | ⟨w1, w2, -, -, rfl⟩ |
    ⟨now, -, -, -, rfl⟩
  · exact h
  · exact inv_respond h v
  · exact inv_setDwellReg h d
  · exact inv_clearBelow h s.cfg.grids
  · rcases hv with ⟨sg, b, hs, rfl⟩ | ⟨m, rfl⟩
    · exact inv_memWrite h hg (putBit_memRead_lt h g hs b)
    · exact inv_memWrite h hg (segmentBits_lt s.cfg m)
  · exact inv_sendFrame h w1 w2
  · exact inv_scanned h now

/-- Every command keeps the invariant, the one that faults too (R36, R123, R144). -/
theorem inv_execMarked (h : Inv s) (i : Instr) : Inv (execMarked i s) := by
  rcases execMarked_cases i s with hn | hf
  · exact inv_exec h hn
  · rw [hf]
    apply inv_markFaulted
    rcases leftByFault_cases i s with hl | hl
    · rwa [hl]
    · rw [hl]
      exact inv_abandonScan h

/-- Every step keeps the invariant, whatever its outcome. -/
theorem inv_stepMarked (h : Inv s) : Inv (stepMarked s) := by
  rcases stepMarked_cases s with hs | ⟨i, rest, hs⟩ | ⟨r, rest, hs⟩
  · rwa [hs]
  · exact hs ▸ inv_execMarked (inv_withPending h rest) i
  · exact hs ▸ inv_markRefused (inv_withPending h rest) r

/-- A run of words keeps the invariant: issuing them changes the port only, and then every step keeps it (R243). -/
theorem inv_runWords (h : Inv s) (ws : List CommandWord) : Inv (runWords ws s) := by
  rw [runWords, issue_foldl]
  exact stepsMarked_induction (P := Inv) (fun _ => inv_stepMarked) ws.length (inv_withPending h _)

end Invariant

/-- Settles O14: an idle step changes nothing, and any other executes a command, which keeps the invariant. -/
theorem everyStepKeepsTheInvariant : Obligations.EveryStepKeepsTheInvariant := by
  intro s t h hstep
  rcases step_next hstep with rfl | ⟨i, rest, hexec⟩
  · exact h
  · exact inv_exec (inv_withPending h rest) hexec

/-- Settles O54: the invariant is kept by the state every step leaves, and so by a run. -/
theorem everyMarkedStepKeepsTheInvariant : Obligations.EveryMarkedStepKeepsTheInvariant := fun _ h =>
  ⟨inv_stepMarked h, inv_runWords h⟩

/-! ### The constants of a valid configuration and the chip words -/

/-- MASK1 has all 20 bits (R23). -/
theorem mask1_getLsbD {i : Nat} (hi : i < 20) : mask1.getLsbD i = true := by
  rw [mask1, show (0xFFFFF#20) = BitVec.allOnes 20 from rfl, BitVec.getLsbD_allOnes, decide_eq_true hi]

/-- REQUIRED_CHIPS is the ceiling of (G + S) / 20: the n with 20 (n - 1) < G + S ≤ 20 n (R22). -/
theorem requiredChips_ceil {c : Config} (h : 1 ≤ c.grids) :
    20 * (requiredChips c - 1) < c.grids + c.segments ∧ c.grids + c.segments ≤ 20 * requiredChips c := by
  simp only [requiredChips, totalBits, chipOutputs]
  omega

/-- Settles O21: the masks bit by bit, the ceiling by `requiredChips_ceil`, and both bounds from R12's capacity, at least
one grid taking its output from the 40. -/
theorem derivedConstants : Obligations.DerivedConstants := by
  intro c hv
  obtain ⟨hg, -, -, -, hchips, hfits, -⟩ := (validConfig_iff c).1 hv
  obtain ⟨hlow, hhigh⟩ := requiredChips_ceil hg
  refine ⟨fun i hi => ?_, fun i hi => mask1_getLsbD hi, by omega, hlow, hhigh, by omega⟩
  rw [mask2_getLsbD, decide_eq_true hi, Bool.true_and]

/-- Settles O23: `word1_getLsbD` and `word2_getLsbD`, where 20 + i below G + S is i below MASK2's width. -/
theorem chipWordsSplitTheCombinedWord : Obligations.ChipWordsSplitTheCombinedWord := by
  intro c g m i _ hi
  rw [word1_getLsbD, word2_getLsbD]
  refine ⟨by simp [hi], fun hlow => ?_, fun hhigh => ?_⟩
  · simp [hi, show i < c.grids + c.segments - 20 by omega]
  · simp [show ¬i < c.grids + c.segments - 20 by omega]

end Sys2Proof.Machine
end

section
/-! SUPPORT. The command port and the blocks it addresses (20_memory.md): words issued together run one at a time in the
order issued (R58, R243), and blocks side by side share no state (R63). -/

namespace Sys2Proof

/-- A well-formed command's word meets its row of R77's table: every must-be-zero field is laid out as zero, a timer
operand fits by `Instr.wf`, and the gaps of TRANSFER's word pair are zero. -/
theorem decode_encode {tw : Nat} {i : Instr} (h : i.wf tw = true) : decode tw (encode i) = .ok i := by
  cases i with
  | tick | setDwell =>
    simpa [encode, decode, checked, aZero, bZero, vZero, zZero, dFitsTimer, opField_layOut, aField_layOut,
      bField_layOut, vField_layOut, zField_layOut, dField_layOut, Instr.wf] using h
  | transfer =>
    simp [encode, decode, checked, aZero, bZero, vZero, zZero, dIsWordPair, opField_layOut, aField_layOut,
      bField_layOut, vField_layOut, zField_layOut, dField_layOut, Machine.wordPair_low, Machine.wordPair_high,
      Machine.wordPair_gap, Machine.wordPair_top]
  | pack | getDwell | clear | setSegment | setGrid | readGrid | getBrightness =>
    simp [encode, decode, checked, aZero, bZero, vZero, zZero, dZero, opField_layOut, aField_layOut,
      bField_layOut, vField_layOut, zField_layOut, dField_layOut]

end Sys2Proof

namespace Sys2Proof.Machine

/-! ### One word at a time -/

section CommandPort

variable {s : State}

/-- A fault's effect does not depend on the words waiting. -/
theorem leftByFault_withPending (i : Instr) (s : State) (p : List CommandWord) :
    leftByFault i { s with pending := p } = { leftByFault i s with pending := p } := by
  cases i <;> rfl

/-- Executing a command, stops included, neither reads nor writes the command port. -/
theorem execMarked_withPending (i : Instr) (s : State) (p : List CommandWord) :
    execMarked i { s with pending := p } = { execMarked i s with pending := p } := by
  simp only [execMarked, exec_pending]
  cases exec i s with
  | next t => rfl
  | fault r => exact congrArg (markFaulted r) (leftByFault_withPending i s p)
  | refused r => rfl

@[simp] theorem execMarked_pending (i : Instr) (s : State) : (execMarked i s).pending = s.pending :=
  (congrArg State.pending (execMarked_withPending i s s.pending) :)

@[simp] theorem execMarked_cfg (i : Instr) (s : State) : (execMarked i s).cfg = s.cfg := by
  rcases execMarked_cases i s with hn | hf
  · rw [exec_next_writes hn]
  · rcases leftByFault_cases i s with hl | hl <;> simp [hf, hl]

/-- A block with no word waiting, issued one and stepped, executes its command or marks its refusal (R79, R80, R203). -/
theorem stepMarked_issue (hp : s.pending = []) (w : CommandWord) :
    stepMarked (issue w s) = match decode s.cfg.timerWidth w with
      | .ok i => execMarked i s
      | .error e => markRefused (refusalOf e) s := by
  have hw : (issue w s).pending = [w] := by rw [issue_pending, hp, List.nil_append]
  have hs : { issue w s with pending := [] } = s := by rw [← hp]; rfl
  have hstep := stepMarked_head hw
  rw [hs, issue_cfg] at hstep
  exact hstep

/-- A block issued one word and stepped waits for the next. -/
theorem stepMarked_issue_pending (hp : s.pending = []) (w : CommandWord) : (stepMarked (issue w s)).pending = [] := by
  rw [stepMarked_issue hp]
  cases decode s.cfg.timerWidth w with
  | ok i => exact (execMarked_pending i s).trans hp
  | error e => exact hp

/-- The words behind the one a step takes wait on, unread: the step is that of the block issued this word alone. -/
theorem stepMarked_withPending_cons (hp : s.pending = []) (w : CommandWord) (rest : List CommandWord) :
    stepMarked { s with pending := w :: rest } = { stepMarked (issue w s) with pending := rest } := by
  rw [stepMarked_head (w := w) (rest := rest) rfl, stepMarked_issue hp]
  cases decode s.cfg.timerWidth w with
  | ok i => exact execMarked_withPending i s rest
  | error e => rfl

/-- The first word of a run is issued and stepped before the others are issued (R58). -/
theorem runWords_cons (hp : s.pending = []) (w : CommandWord) (ws : List CommandWord) :
    runWords (w :: ws) s = runWords ws (stepMarked (issue w s)) := by
  simp only [runWords, issue_foldl, hp, stepMarked_issue_pending hp w, List.nil_append, List.length_cons, stepsMarked,
    stepMarked_withPending_cons hp]

/-- A run issues and steps one word after the other, in the order given (R58). -/
theorem runWords_eq_foldl (hp : s.pending = []) (ws : List CommandWord) :
    runWords ws s = ws.foldl (fun t w => stepMarked (issue w t)) s := by
  induction ws generalizing s with
  | nil => rfl
  | cons w ws ih => rw [runWords_cons hp, ih (stepMarked_issue_pending hp w), List.foldl_cons]

/-- Stepping the word of a well-formed command executes the command. -/
theorem stepMarked_issue_encode (hp : s.pending = []) {i : Instr} (hi : i.wf s.cfg.timerWidth = true) :
    stepMarked (issue (encode i) s) = execMarked i s := by
  rw [stepMarked_issue hp, decode_encode hi]

/-- A run of the words of well-formed commands executes the commands in order: the configuration, and with it what is
well-formed, stays as it is (R20). -/
theorem runWords_encode (hp : s.pending = []) {is : List Instr} (hwf : ∀ i ∈ is, i.wf s.cfg.timerWidth = true) :
    runWords (is.map encode) s = is.foldl (fun t i => execMarked i t) s := by
  induction is generalizing s with
  | nil => rfl
  | cons i is ih =>
    obtain ⟨hi, his⟩ := List.forall_mem_cons.1 hwf
    rw [List.map_cons, runWords_cons hp, stepMarked_issue_encode hp hi, List.foldl_cons]
    exact ih (by rw [execMarked_pending, hp]) (by rwa [execMarked_cfg])

end CommandPort

/-- Where no command stops, executing them with their marks gives the state `execAll` gives, its marks as before. -/
theorem execAll_next {is : List Instr} {s t : State} (h : execAll is s = .next t) :
    is.foldl (fun u i => execMarked i u) s = t ∧ unmarked t = unmarked s := by
  induction is generalizing s with
  | nil => exact Host.Outcome.next.inj h ▸ ⟨rfl, rfl⟩
  | cons i is ih =>
    cases he : exec i s with
    | next u =>
      have hm : execMarked i s = u := by rw [execMarked, he]
      obtain ⟨hfold, hmarks⟩ := ih (s := u) (by simpa only [execAll, he] using h)
      rw [List.foldl_cons, hm, hmarks]
      refine ⟨hfold, ?_⟩
      rw [exec_next_writes he]
      rfl
    | fault r => simp [execAll, he] at h
    | refused r => simp [execAll, he] at h

/-- Settles O10: `runWords_eq_foldl`, `runWords_encode`, and `execAll_next` for a run in which no command stops. -/
theorem commandsRunInTheOrderIssued : Obligations.CommandsRunInTheOrderIssued := by
  intro s hp
  refine ⟨runWords_eq_foldl hp, fun is hwf => ⟨runWords_encode hp hwf, fun t ht => ?_⟩⟩
  obtain ⟨hfold, hmarks⟩ := execAll_next ht
  have hrun : runWords (is.map encode) s = t := (runWords_encode hp hwf).trans hfold
  exact ⟨hrun, fun hu => by rw [goodRun, hrun, hmarks, hu]⟩

/-! ### Blocks side by side -/

/-- A step of block k that completes puts the block's next state in its place (R63). -/
theorem stepBoard_of_step {bs : Boards} {k : Nat} {b b' : State} (hb : bs[k]? = some b) (hs : step b = .next b') :
    stepBoard k bs = .next (bs.set k b') := by
  induction bs generalizing k with
  | nil => simp at hb
  | cons c bs ih =>
    cases k with
    | zero =>
      obtain rfl : c = b := by simpa using hb
      simp only [stepBoard, hs, List.set_cons_zero]
    | succ k => simp only [stepBoard, ih (k := k) (by simpa using hb), List.set_cons_succ]

/-- A step that completes found no block at its position (log 15), or put block k's next state in its place (R63). -/
theorem stepBoard_next {bs bs' : Boards} {k : Nat} (h : stepBoard k bs = .next bs') :
    bs[k]? = none ∧ bs' = bs ∨ ∃ b b', bs[k]? = some b ∧ step b = .next b' ∧ bs' = bs.set k b' := by
  induction bs generalizing k bs' with
  | nil => exact .inl ⟨rfl, by simpa [stepBoard] using h.symm⟩
  | cons c bs ih =>
    cases k with
    | zero =>
      cases hs : step c with
      | next c' => exact .inr ⟨c, c', rfl, hs, by simpa [stepBoard, hs] using h.symm⟩
      | fault r => simp [stepBoard, hs] at h
      | refused r => simp [stepBoard, hs] at h
    | succ k =>
      cases hs : stepBoard k bs with
      | next ds =>
        obtain rfl : c :: ds = bs' := by simpa [stepBoard, hs] using h
        rcases ih hs with ⟨hn, rfl⟩ | ⟨b, b', hb, hstep, rfl⟩
        · exact .inl ⟨by simpa using hn, rfl⟩
        · exact .inr ⟨b, b', by simpa using hb, hstep, rfl⟩
      | fault r => simp [stepBoard, hs] at h
      | refused r => simp [stepBoard, hs] at h

/-- Settles O52: `stepBoard_of_step`, and by `stepBoard_next` nothing but position k of the list is written. -/
theorem boardsShareNoState : Obligations.BoardsShareNoState := by
  intro bs k
  refine ⟨fun b b' => stepBoard_of_step, fun bs' h => ?_⟩
  rcases stepBoard_next h with ⟨-, rfl⟩ | ⟨b, b', -, -, rfl⟩
  · exact ⟨rfl, fun _ _ => rfl⟩
  · exact ⟨List.length_set, fun j hj => List.getElem?_set_ne hj.symm⟩

end Sys2Proof.Machine
end

section
/-! SUPPORT. The decoder as R77's table reads bit by bit, and the round trips between words and commands (R75 to R80). -/

namespace Sys2Proof

/-! ### Zero fields as runs of zero bits -/

/-- The bits from `lo` up to, and not including, `hi` are zero. -/
def BitsClear {n : Nat} (w : BitVec n) (lo hi : Nat) : Prop := ∀ i, lo ≤ i → i < hi → w.getLsbD i = false

theorem bitsClear_append {n : Nat} {w : BitVec n} {lo mid hi : Nat} (h1 : lo ≤ mid) (h2 : mid ≤ hi) :
    BitsClear w lo mid ∧ BitsClear w mid hi ↔ BitsClear w lo hi := by
  constructor
  · rintro ⟨hlow, hhigh⟩ i h3 h4
    by_cases hmid : i < mid
    · exact hlow i h3 hmid
    · exact hhigh i (by omega) h4
  · intro h
    exact ⟨fun i h3 h4 => h i h3 (by omega), fun i h3 h4 => h i (by omega) h4⟩

/-- A field is zero when its bits are. -/
theorem extractLsb'_eq_zero_iff {n : Nat} {w : BitVec n} (start len : Nat) :
    w.extractLsb' start len = 0 ↔ BitsClear w start (start + len) := by
  constructor
  · intro h i h1 h2
    have hbit := congrArg (fun x : BitVec len => x.getLsbD (i - start)) h
    simpa [show i - start < len by omega, show start + (i - start) = i by omega] using hbit
  · intro h
    apply BitVec.eq_of_getLsbD_eq
    intro i hi
    simp [hi, h (start + i) (by omega) (by omega)]

theorem toNat_lt_iff_bitsClear (v : Word64) (n : Nat) : v.toNat < 2 ^ n ↔ BitsClear v n 64 := by
  refine ⟨fun h i h1 _ => Machine.high_clear_of_toNat_lt h h1, fun h => Machine.toNat_lt_of_high_clear fun j hj => ?_⟩
  by_cases h64 : j < 64
  · exact h j hj h64
  · exact BitVec.getLsbD_of_ge v j (by omega)

/-- Bits of D as bits of the word (R75). -/
theorem bitsClear_dField (w : CommandWord) {lo hi : Nat} (h64 : hi ≤ 64) :
    BitsClear (dField w) lo hi ↔ BitsClear w (64 + lo) (64 + hi) := by
  have hbit : ∀ i, i < 64 → (dField w).getLsbD i = w.getLsbD (64 + i) := fun i hi => by simp [dField, hi]
  constructor
  · intro h i h1 h2
    have hd := h (i - 64) (by omega) (by omega)
    rwa [hbit _ (by omega), show 64 + (i - 64) = i by omega] at hd
  · intro h i h1 h2
    rw [hbit i (by omega)]
    exact h (64 + i) (by omega) (by omega)

theorem aZero_iff (w : CommandWord) : aZero w = true ↔ BitsClear w 4 12 := by
  rw [aZero, beq_iff_eq, aField, extractLsb'_eq_zero_iff]

theorem bZero_iff (w : CommandWord) : bZero w = true ↔ BitsClear w 12 20 := by
  rw [bZero, beq_iff_eq, bField, extractLsb'_eq_zero_iff]

theorem vZero_iff (w : CommandWord) : vZero w = true ↔ BitsClear w 20 21 := by
  rw [vZero, vField, Bool.not_eq_true']
  refine ⟨fun h i h1 h2 => ?_, fun h => h 20 (by omega) (by omega)⟩
  rwa [show i = 20 by omega]

theorem zZero_iff (w : CommandWord) : zZero w = true ↔ BitsClear w 21 64 := by
  rw [zZero, beq_iff_eq, zField, extractLsb'_eq_zero_iff]

theorem dZero_iff (w : CommandWord) : dZero w = true ↔ BitsClear w 64 128 := by
  rw [dZero, beq_iff_eq, dField, extractLsb'_eq_zero_iff]

theorem dIsWordPair_iff (w : CommandWord) : dIsWordPair w = true ↔ BitsClear w 84 96 ∧ BitsClear w 116 128 := by
  rw [dIsWordPair, Bool.and_eq_true, beq_iff_eq, beq_iff_eq, extractLsb'_eq_zero_iff, extractLsb'_eq_zero_iff,
    bitsClear_dField w (by omega), bitsClear_dField w (by omega)]

theorem dFitsTimer_iff (tw : Nat) (w : CommandWord) : dFitsTimer tw w = true ↔ BitsClear w (64 + tw) 128 := by
  rw [dFitsTimer, decide_eq_true_eq, toNat_lt_iff_bitsClear, bitsClear_dField w (by omega)]

/-- Fields B, V and Z, which stand side by side. -/
theorem bvzZero_iff (w : CommandWord) : (bZero w && vZero w && zZero w) = true ↔ BitsClear w 12 64 := by
  rw [Bool.and_eq_true, Bool.and_eq_true, bZero_iff, vZero_iff, zZero_iff, bitsClear_append (by omega) (by omega),
    bitsClear_append (by omega) (by omega)]

/-- Fields A, B, V and Z, which stand side by side. -/
theorem abvzZero_iff (w : CommandWord) : (aZero w && bZero w && vZero w && zZero w) = true ↔ BitsClear w 4 64 := by
  rw [Bool.and_assoc, Bool.and_assoc, Bool.and_eq_true, ← Bool.and_assoc, bvzZero_iff, aZero_iff,
    bitsClear_append (by omega) (by omega)]

/-! ### The two kinds of opcode -/

/-- Every bit that the row of the word's opcode requires to be zero is zero (R77, R80). -/
def MustBeZeroClear (tw : Nat) (w : CommandWord) : Prop :=
  ∀ i, i < 128 → Machine.mustBeZero tw (opField w).toNat i → w.getLsbD i = false

/-- With a defined opcode the decoder checks the must-be-zero bits of the opcode's row and nothing else (R77, R80). -/
theorem decode_defined {tw : Nat} {w : CommandWord} (h1 : 0x1 ≤ (opField w).toNat) (hA : (opField w).toNat ≤ 0xA) :
    ∃ z i, decode tw w = checked z i ∧ (z = true ↔ MustBeZeroClear tw w) := by
  unfold decode MustBeZeroClear
  split
  case h_11 => grind
  all_goals refine ⟨_, _, rfl, ?_⟩
  case h_1 hop | h_8 hop =>
    rw [hop, bvzZero_iff]
    grind [BitsClear, Machine.mustBeZero]
  case h_2 hop | h_4 hop =>
    rw [hop, Bool.and_eq_true, abvzZero_iff, dFitsTimer_iff]
    grind [BitsClear, Machine.mustBeZero]
  case h_3 hop =>
    rw [hop, Bool.and_eq_true, abvzZero_iff, dIsWordPair_iff]
    grind [BitsClear, Machine.mustBeZero]
  case h_5 hop | h_6 hop | h_10 hop =>
    rw [hop, Bool.and_eq_true, abvzZero_iff, dZero_iff, bitsClear_append (by omega) (by omega)]
    grind [BitsClear, Machine.mustBeZero]
  case h_7 hop =>
    rw [hop, Bool.and_eq_true, zZero_iff, dZero_iff, bitsClear_append (by omega) (by omega)]
    grind [BitsClear, Machine.mustBeZero]
  case h_9 hop =>
    rw [hop, Bool.and_eq_true, bvzZero_iff, dZero_iff, bitsClear_append (by omega) (by omega)]
    grind [BitsClear, Machine.mustBeZero]

/-- An opcode without a row is refused before any field is looked at (R79, R203). -/
theorem decode_reserved {tw : Nat} {w : CommandWord} (h : (opField w).toNat = 0x0 ∨ 0xB ≤ (opField w).toNat) :
    decode tw w = .error .reservedOpcode := by
  unfold decode
  split
  case h_11 => rfl
  all_goals omega

/-! ### The round trips -/

/-- A word whose field Z is zero is laid out from its other fields, under whatever name they are known. -/
theorem layOut_of_fields {w : CommandWord} {op : Nat} {a b : BitVec 8} {v : Bool} {d : Word64}
    (hop : (opField w).toNat = op) (ha : aField w = a) (hb : bField w = b) (hv : vField w = v) (hz : zField w = 0)
    (hd : dField w = d) : layOut (BitVec.ofNat 4 op) a b v d = w := by
  subst hop ha hb hv hd
  rw [BitVec.ofNat_toNat, BitVec.setWidth_eq, layOut_fields hz]

/-- A D field whose gaps are zero is the pair of its two words (R77, TRANSFER). -/
theorem wordPair_of_gaps_zero {d : Word64} (hgap : d.extractLsb' 20 12 = 0) (htop : d.extractLsb' 52 12 = 0) :
    wordPair (d.extractLsb' 0 20) (d.extractLsb' 32 20) = d := by
  have hgap : BitsClear d 20 32 := (extractLsb'_eq_zero_iff 20 12).1 hgap
  have htop : BitsClear d 52 64 := (extractLsb'_eq_zero_iff 52 12).1 htop
  apply BitVec.eq_of_getLsbD_eq
  intro i hi
  simp only [wordPair, BitVec.getLsbD_or, BitVec.getLsbD_shiftLeft, BitVec.getLsbD_setWidth, BitVec.getLsbD_extractLsb']
  grind [BitsClear]

/-- A row's checks are what the encoder needs to lay the word out again: the fields the command does not carry are zero,
a timer operand fits, and TRANSFER's gaps are zero. -/
theorem encode_of_decode {tw : Nat} {w : CommandWord} {i : Instr} (h : decode tw w = .ok i) :
    i.wf tw = true ∧ encode i = w := by
  unfold decode at h
  split at h
  case h_11 => cases h
  all_goals
    obtain ⟨hz, rfl⟩ := checked_ok.1 h
    simp only [aZero, bZero, vZero, zZero, dZero, dIsWordPair, Bool.and_eq_true, beq_iff_eq, Bool.not_eq_true'] at hz
  case h_1 hop | h_8 hop =>
    obtain ⟨⟨hb, hv⟩, hz⟩ := hz
    exact ⟨rfl, layOut_of_fields hop rfl hb hv hz rfl⟩
  case h_2 hop | h_4 hop =>
    obtain ⟨⟨⟨⟨ha, hb⟩, hv⟩, hz⟩, hfits⟩ := hz
    exact ⟨hfits, layOut_of_fields hop ha hb hv hz rfl⟩
  case h_3 hop =>
    obtain ⟨⟨⟨⟨ha, hb⟩, hv⟩, hz⟩, hgap, htop⟩ := hz
    exact ⟨rfl, layOut_of_fields hop ha hb hv hz (wordPair_of_gaps_zero hgap htop).symm⟩
  case h_5 hop | h_6 hop | h_10 hop =>
    obtain ⟨⟨⟨⟨ha, hb⟩, hv⟩, hz⟩, hd⟩ := hz
    exact ⟨rfl, layOut_of_fields hop ha hb hv hz hd⟩
  case h_7 hop =>
    obtain ⟨hz, hd⟩ := hz
    exact ⟨rfl, layOut_of_fields hop rfl rfl rfl hz hd⟩
  case h_9 hop =>
    obtain ⟨⟨⟨hb, hv⟩, hz⟩, hd⟩ := hz
    exact ⟨rfl, layOut_of_fields hop rfl hb hv hz hd⟩

/-- Settles O1: `decode_encode`. -/
theorem decodeOfEncodeIsTheCommand : Obligations.DecodeOfEncodeIsTheCommand := fun _ _ => decode_encode

/-- Settles O2: `encode_of_decode`. -/
theorem encodeOfDecodeIsTheWord : Obligations.EncodeOfDecodeIsTheWord := fun _ _ _ => encode_of_decode

/-- A word that decodes has the opcode of its command (R76). -/
theorem opField_of_decode {tw : Nat} {w : CommandWord} {i : Instr} (h : decode tw w = .ok i) : opField w = i.opcode := by
  rw [← (encode_of_decode h).2]
  cases i <;> exact opField_layOut ..

/-- The words that decode to a command with a given opcode are those with the opcode and its must-be-zero bits clear
(R76, R77). -/
theorem exists_decode_iff {tw op : Nat} {w : CommandWord} (h1 : 0x1 ≤ op) (hA : op ≤ 0xA) :
    (∃ i : Instr, decode tw w = .ok i ∧ i.opcode.toNat = op) ↔ (opField w).toNat = op ∧ MustBeZeroClear tw w := by
  constructor
  · rintro ⟨i, hd, rfl⟩
    rw [← opField_of_decode hd] at h1 hA ⊢
    obtain ⟨z, j, hj, hz⟩ := decode_defined (tw := tw) h1 hA
    exact ⟨rfl, hz.1 (checked_ok.1 (hj.symm.trans hd)).1⟩
  · rintro ⟨rfl, hclear⟩
    obtain ⟨z, i, hd, hz⟩ := decode_defined h1 hA
    rw [hz.2 hclear] at hd
    exact ⟨i, hd, by rw [opField_of_decode hd]⟩

/-! ### The opcode table -/

/-- Masked bits compare bit by bit, where the value compared with has no bit outside the mask. -/
theorem and_eq_iff_getLsbD {n : Nat} {x m k : BitVec n} (hk : ∀ i, m.getLsbD i = false → k.getLsbD i = false) :
    x &&& m = k ↔ ∀ i, m.getLsbD i = true → x.getLsbD i = k.getLsbD i := by
  constructor
  · rintro rfl i hm
    rw [BitVec.getLsbD_and, hm, Bool.and_true]
  · intro h
    apply BitVec.eq_of_getLsbD_eq
    intro i _
    rw [BitVec.getLsbD_and]
    cases hm : m.getLsbD i with
    | true => rw [h i hm, Bool.and_true]
    | false => rw [hk i hm, Bool.and_false]

/-- A mask of the opcode table selects the opcode and the must-be-zero bits of its row, at TW = 32. -/
def IsRowMask (op : Nat) (mask : CommandWord) : Prop :=
  ∀ i : Fin 128, mask.getLsbD i = true ↔ (i : Nat) < 4 ∨ Machine.mustBeZero 32 op i

theorem four_le_of_mustBeZero {tw op i : Nat} (h1 : 0x1 ≤ op) (hA : op ≤ 0xA) (h : Machine.mustBeZero tw op i) :
    4 ≤ i := by
  interval_cases op <;> simp only [Machine.mustBeZero] at h <;> omega

/-- The bits of a row's match: the opcode, and nothing above it. -/
theorem ofNat_opcode_high {op i : Nat} (h16 : op < 2 ^ 4) (hi : 4 ≤ i) : (BitVec.ofNat 128 op).getLsbD i = false := by
  rw [BitVec.getLsbD_ofNat,
    Nat.testBit_lt_two_pow (Nat.lt_of_lt_of_le h16 (Nat.pow_le_pow_right (by omega) hi)), Bool.and_false]

/-- A word has opcode op when its four low bits are those of the match. -/
theorem opField_toNat_iff {op : Nat} (h16 : op < 2 ^ 4) (w : CommandWord) :
    (opField w).toNat = op ↔ ∀ i, i < 4 → w.getLsbD i = (BitVec.ofNat 128 op).getLsbD i := by
  have hop : (opField w).toNat = op ↔ opField w = BitVec.ofNat 4 op := by
    rw [← BitVec.toNat_inj, BitVec.toNat_ofNat, Nat.mod_eq_of_lt h16]
  rw [hop, BitVec.eq_of_getLsbD_eq_iff]
  refine forall₂_congr fun i hi => ?_
  have hbit : (opField w).getLsbD i = w.getLsbD i := by simp [opField, hi]
  rw [hbit, BitVec.getLsbD_ofNat, BitVec.getLsbD_ofNat, decide_eq_true hi, decide_eq_true (show i < 128 by omega)]

/-- A word meets a row's mask and match when it has the row's opcode and its must-be-zero bits are clear
(opcode_table.json). -/
theorem and_rowMask_eq_iff {op : Nat} {mask : CommandWord} (h1 : 0x1 ≤ op) (hA : op ≤ 0xA) (hmask : IsRowMask op mask)
    (w : CommandWord) :
    w &&& mask = BitVec.ofNat 128 op ↔ (opField w).toNat = op ∧ MustBeZeroClear 32 w := by
  have h16 : op < 2 ^ 4 := by omega
  have hmatch : ∀ i, mask.getLsbD i = false → (BitVec.ofNat 128 op).getLsbD i = false := fun i hm =>
    ofNat_opcode_high h16 <| by
      by_contra h4
      have hset := (hmask ⟨i, by omega⟩).2 (.inl (Nat.lt_of_not_le h4))
      simp [hm] at hset
  rw [and_eq_iff_getLsbD hmatch, opField_toNat_iff h16]
  constructor
  · intro h
    have hlow : ∀ i, i < 4 → w.getLsbD i = (BitVec.ofNat 128 op).getLsbD i := fun i hi =>
      h i ((hmask ⟨i, by omega⟩).2 (.inl hi))
    refine ⟨hlow, fun i hi hz => ?_⟩
    rw [(opField_toNat_iff h16 w).2 hlow] at hz
    rw [h i ((hmask ⟨i, hi⟩).2 (.inr hz)), ofNat_opcode_high h16 (four_le_of_mustBeZero h1 hA hz)]
  · rintro ⟨hlow, hclear⟩ i hm
    have hi : i < 128 := BitVec.lt_of_getLsbD hm
    rcases (hmask ⟨i, hi⟩).1 hm with h4 | hz
    · exact hlow i h4
    · rw [ofNat_opcode_high h16 (four_le_of_mustBeZero h1 hA hz)]
      exact hclear i hi (by rwa [(opField_toNat_iff h16 w).2 hlow])

/-- A command is of one of the ten forms of R76. -/
theorem Instr.exists_iff {P : Instr → Prop} :
    (∃ i, P i) ↔ (∃ g m, P (.pack g m)) ∨ (∃ now, P (.tick now)) ∨ (∃ w1 w2, P (.transfer w1 w2)) ∨
      (∃ d, P (.setDwell d)) ∨ P .getDwell ∨ P .clear ∨ (∃ g sg v, P (.setSegment g sg v)) ∨
      (∃ g m, P (.setGrid g m)) ∨ (∃ g, P (.readGrid g)) ∨ P .getBrightness := by
  constructor
  · rintro ⟨i, h⟩
    cases i <;> grind
  · grind

/-- Settles O5: each mask selects the opcode and the must-be-zero bits of its row (`and_rowMask_eq_iff`), which is what
decoding to a command with that opcode asks (`exists_decode_iff`), and one form of command has it. -/
theorem opcodeTableRowsMatchTheDecoder : Obligations.OpcodeTableRowsMatchTheDecoder := by
  intro w
  refine ⟨?_, ?_, ?_, ?_, ?_, ?_, ?_, ?_, ?_, ?_⟩
  all_goals
    rw [and_rowMask_eq_iff (by decide) (by decide) (by simp only [IsRowMask, Machine.mustBeZero]; decide),
      ← exists_decode_iff (by decide) (by decide), Instr.exists_iff]
    simp [Instr.opcode]

end Sys2Proof
end

section
/-! SUPPORT. How a step stops and what it leaves, and which commands respond (R38, R79, R80, R82, R123, R144). -/

namespace Sys2Proof.Machine

/-! ### Words that are refused -/

/-- The refusing branch of `step_head` and `stepMarked_head`: the word is off the port and the `refused` mark is set. -/
theorem step_of_decode_error {s : State} {w : CommandWord} {rest : List CommandWord} {e : DecodeError}
    (hp : s.pending = w :: rest) (hd : decode s.cfg.timerWidth w = .error e) :
    step s = .refused (refusalOf e) ∧
    stepMarked s = { s with pending := rest, refused := some (s.refused.getD (refusalOf e)) } := by
  rw [step_head hp, stepMarked_head hp, hd]
  exact ⟨rfl, rfl⟩

/-- Settles O3: the decoder answers `reservedOpcode`. -/
theorem reservedOpcodeIsRefused : Obligations.ReservedOpcodeIsRefused := fun _ _ _ hp hop =>
  step_of_decode_error hp (decode_reserved hop)

/-- Settles O4: by `decode_defined` the decoder checks the bits of `mustBeZero`, so a set one is its error; and where it
answers with a command, `encode_of_decode` says that the word is the command's. -/
theorem nonzeroReservedFieldIsRefused : Obligations.NonzeroReservedFieldIsRefused := by
  intro s w rest hp h1 hA
  obtain ⟨z, c, hd, hz⟩ := decode_defined (tw := s.cfg.timerWidth) h1 hA
  constructor
  · rintro ⟨i, hi, hmust, hset⟩
    have hfalse : z = false := by
      rw [Bool.eq_false_iff, Ne, hz]
      intro hclear
      simp [hclear i hi hmust] at hset
    exact step_of_decode_error hp (hd.trans (checked_error.2 ⟨hfalse, rfl⟩))
  · intro hclear
    have hok := hd.trans (checked_ok.2 ⟨hz.2 hclear, rfl⟩)
    obtain ⟨hwf, henc⟩ := encode_of_decode hok
    exact ⟨c, hok, hwf, henc, step_of_decode_ok hp hok⟩

/-! ### Commands that fault -/

/-- SET_SEGMENT completes and writes the store at most (R161). -/
theorem execSetSegment_writes (g sg : BitVec 8) (v : Bool) (s : State) :
    ∃ m, execSetSegment g sg v s = .next { s with seg := m } := by
  by_cases h : g.toNat < s.cfg.grids ∧ sg.toNat < s.cfg.segments
  · exact ⟨_, execSetSegment_in h.1 h.2 v⟩
  · exact ⟨_, execSetSegment_out h v⟩

/-- SET_GRID completes and writes the store at most (R162). -/
theorem execSetGrid_writes (g : BitVec 8) (mask : Word64) (s : State) :
    ∃ m, execSetGrid g mask s = .next { s with seg := m } := by
  by_cases h : g.toNat < s.cfg.grids
  · exact ⟨_, execSetGrid_in h mask⟩
  · exact ⟨_, execSetGrid_out h mask⟩

/-- A command that faults is a TRANSFER or a TICK that advances (R144). -/
theorem exec_fault {i : Instr} {s : State} {r : Fault} (h : exec i s = .fault r) :
    (∃ w1 w2, i = .transfer w1 w2) ∨ ∃ now, i = .tick now ∧ advances s now = true := by
  cases i with
  | transfer w1 w2 => exact .inl ⟨w1, w2, rfl⟩
  | tick now =>
    cases ha : advances s now with
    | true => exact .inr ⟨now, rfl, ha⟩
    | false => cases (execTick_waits ha).symm.trans h
  | setSegment g sg v =>
    obtain ⟨m, hm⟩ := execSetSegment_writes g sg v s
    cases hm.symm.trans h
  | setGrid g mask =>
    obtain ⟨m, hm⟩ := execSetGrid_writes g mask s
    cases hm.symm.trans h
  | pack | setDwell | getDwell | clear | readGrid | getBrightness => cases h

/-- There is one fault, so a faulting command leaves a mark that names it, whatever the mark was (R38, R205). -/
theorem execMarked_of_fault {i : Instr} {s : State} {r : Fault} (h : exec i s = .fault r) :
    execMarked i s = { leftByFault i s with faulted := some .transportUnavailable } := by
  rw [execMarked, h]
  rfl

/-- Settles O15: a step that stops has a word waiting; the word is refused (`step_of_decode_error`), or its command faults
(`exec_outcome`) and is one of the two of `exec_fault`. -/
theorem aStopChangesOnlyThePortAMarkAndAFaultingTicksScan :
    Obligations.AStopChangesOnlyThePortAMarkAndAFaultingTicksScan := by
  intro s hstop
  cases hp : s.pending with
  | nil => exact absurd (by rw [step, hp]) (hstop s)
  | cons w rest =>
    refine ⟨w, rest, rfl, ?_⟩
    cases hd : decode s.cfg.timerWidth w with
    | error e => exact .inl ⟨refusalOf e, step_of_decode_error hp hd⟩
    | ok i =>
      have hstep := step_of_decode_ok hp hd
      rcases exec_outcome i { s with pending := rest } with ⟨t, ht⟩ | ⟨habsent, hf⟩
      · exact absurd (hstep.trans ht) (hstop t)
      · have hmarked : stepMarked s = execMarked i { s with pending := rest } := by rw [stepMarked_head hp, hd]
        rw [execMarked_of_fault hf] at hmarked
        rcases exec_fault hf with ⟨w1, w2, rfl⟩ | ⟨now, rfl, hadv⟩
        · exact .inr (.inl ⟨w1, w2, rfl, habsent, hstep.trans hf, hmarked⟩)
        · exact .inr (.inr ⟨now, rfl, habsent, of_decide_eq_true hadv, hstep.trans hf, hmarked⟩)

/-! ### Responses -/

/-- Settles O18: the four respond by their definition; of the others each writes what its lemma says, and no response. -/
theorem fourCommandsRespondAndOnlyRespond : Obligations.FourCommandsRespondAndOnlyRespond := by
  intro i s
  constructor
  · intro hr
    cases i with
    | pack | getDwell | readGrid | getBrightness => exact ⟨_, rfl⟩
    | tick | transfer | setDwell | clear | setSegment | setGrid => cases hr
  · intro hr t h
    cases i with
    | pack | getDwell | readGrid | getBrightness => cases hr
    | tick now =>
      rcases execTick_next h with ⟨-, rfl⟩ | ⟨-, -, rfl⟩
      · rfl
      · rw [scanned_eq]
    | transfer w1 w2 =>
      obtain ⟨-, rfl⟩ := doTransfer_next h
      rfl
    | setDwell d =>
      obtain rfl := Host.Outcome.next.inj h
      rfl
    | clear =>
      obtain rfl := Host.Outcome.next.inj h
      rw [clearBelow_eq]
    | setSegment g sg v =>
      obtain ⟨m, hm⟩ := execSetSegment_writes g sg v s
      obtain rfl := Host.Outcome.next.inj (hm.symm.trans h)
      rfl
    | setGrid g mask =>
      obtain ⟨m, hm⟩ := execSetGrid_writes g mask s
      obtain rfl := Host.Outcome.next.inj (hm.symm.trans h)
      rfl

end Sys2Proof.Machine
end

section
/-! SUPPORT. The layouts of 30_encoding.md outside the decoder: the combined word (R70), PACK's response as TRANSFER's
operand (R82), the serial bits of a frame (R72 to R74) and the assembler's operands (R83). -/

namespace Sys2Proof.Machine

/-! ### The packed words and the frame -/

/-- Settles O22: `combine_getLsbD`, where the grid-select half is 0 from bit G on and the segment half below it and from
G + S on. -/
theorem combinedWordLayout : Obligations.CombinedWordLayout := by
  intro c g m i _ hi
  have hsel : c.grids ≤ i → (decide (g < c.grids) && decide (i = g)) = false := fun hlow => by
    simp only [Bool.and_eq_false_iff, decide_eq_false_iff_not]
    omega
  rw [combine_getLsbD]
  refine ⟨fun hgrid => ?_, fun hlow hhigh => ?_, fun hhigh => ?_⟩
  · simp [hi, show ¬c.grids ≤ i by omega]
  · simp [hsel hlow, hi, hlow, hhigh]
  · simp [hsel (by omega), show ¬i < c.grids + c.segments by omega]

/-- Settles O41: the word laid out is the TRANSFER's own, and `decode_encode` reads it. -/
theorem packFeedsTransfer : Obligations.PackFeedsTransfer := by
  intro s t g m tw h
  obtain rfl := Host.Outcome.next.inj h
  exact ⟨_, rfl, decode_encode (i := .transfer _ _) rfl⟩

/-- The three bytes of a word put its top nibble, under four zeros, and then the rest on the line (R73, R74). -/
theorem serialBits_wordBytes (w : ChipWord) :
    serialBits ((wordBytes w).map .shiftByte) =
      List.replicate 4 false ++ (List.range 20).map fun i => w.getLsbD (19 - i) := by
  simp [serialBits, serialBitsOf, wordBytes, List.range_succ, List.replicate]

/-- The LOAD events of a frame put nothing on the line (R72, R74). -/
theorem serialBits_frame (c : Config) (w1 w2 : ChipWord) :
    serialBits (frame c w1 w2) = serialBits ((wordBytes w1).map .shiftByte) ++
      serialBits (if c.chips = 2 then (wordBytes w2).map .shiftByte else []) := by
  simp [frame, serialBits, serialBitsOf]

/-- Settles O40: the bits of each word sent. -/
theorem serialBitsOfAFrame : Obligations.SerialBitsOfAFrame := by
  intro c w1 w2
  rw [serialBits_frame, serialBits_wordBytes]
  constructor
  · intro h2
    rw [if_pos h2, serialBits_wordBytes]
  · intro h1
    rw [if_neg h1]
    exact List.append_nil _

/-! ### The assembler -/

theorem except_bind_eq_ok_iff {ε α β : Type} {x : Except ε α} {f : α → Except ε β} {b : β} :
    (x >>= f) = .ok b ↔ ∃ a, x = .ok a ∧ f a = .ok b := by
  cases x <;> simp [bind, Except.bind]

/-- An operand outside its range is the line's error; one inside leaves it to the operands after it. -/
theorem operand_bind_eq_error_iff {α β : Type} {p : Prop} [Decidable p] {v : α} {f : α → Except AsmError β} :
    ((if p then (.ok v : Except AsmError α) else .error .operandRange) >>= f) = .error .operandRange ↔
      (p → f v = .error .operandRange) := by
  by_cases hp : p <;> simp [hp, bind, Except.bind]

theorem asmTimer_ok {tw n : Nat} {v : Word64} (h : asmTimer tw n = .ok v) : v.toNat < 2 ^ tw := by
  unfold asmTimer at h
  split at h
  next hn =>
    obtain rfl := Except.ok.inj h
    rw [BitVec.toNat_ofNat, Nat.mod_eq_of_lt hn.2]
    exact hn.1
  next => cases h

/-- The timer operand of a line's command is one that `asmTimer` has let through. -/
theorem assemble_timerOperand {tw : Nat} {mn : List Char} {ops : List Nat} {i : Instr} {v : Word64}
    (h : assemble tw mn ops = .ok i) (hi : i = .tick v ∨ i = .setDwell v) : ∃ n, asmTimer tw n = .ok v := by
  unfold assemble at h
  iterate 10
    obtain ⟨-, h⟩ | ⟨-, h⟩ := ite_eq_iff.1 h
    · split at h
      · simp only [except_bind_eq_ok_iff, pure, Except.pure, Except.ok.injEq] at h
        grind
      · cases h
  cases h

/-- What assembles is well-formed: only the timer operands have a bound that their type does not carry (R83). -/
theorem assemble_wf {tw : Nat} {mn : List Char} {ops : List Nat} {i : Instr} (h : assemble tw mn ops = .ok i) :
    i.wf tw = true := by
  cases i with
  | tick now =>
    obtain ⟨n, hn⟩ := assemble_timerOperand h (.inl rfl)
    exact decide_eq_true (asmTimer_ok hn)
  | setDwell d =>
    obtain ⟨n, hn⟩ := assemble_timerOperand h (.inr rfl)
    exact decide_eq_true (asmTimer_ok hn)
  | pack | transfer | getDwell | clear | setSegment | setGrid | readGrid | getBrightness => rfl

/-- Settles O51: `assemble_wf`; for each mnemonic the operands are read in order by `operand_bind_eq_error_iff`, and one of
them is out of its range; the example line is evaluated. -/
theorem assemblerChecksItsOperands : Obligations.AssemblerChecksItsOperands := by
  refine ⟨fun _ _ _ _ => assemble_wf, fun tw g s v h => ?_, fun tw g mask h => ⟨?_, ?_⟩, fun tw g h => ?_,
    fun tw w1 w2 h => ?_, fun tw n h => ⟨?_, ?_⟩, by decide⟩
  · change (asmIndex g >>= fun a => asmIndex s >>= fun b => asmOnOff v >>= fun o => .ok (Instr.setSegment a b o)) = _
    simp only [asmIndex, asmOnOff, operand_bind_eq_error_iff]
    omega
  · change (asmIndex g >>= fun a => asmMask mask >>= fun d => .ok (Instr.pack a d)) = _
    simp only [asmIndex, asmMask, operand_bind_eq_error_iff]
    omega
  · change (asmIndex g >>= fun a => asmMask mask >>= fun d => .ok (Instr.setGrid a d)) = _
    simp only [asmIndex, asmMask, operand_bind_eq_error_iff]
    omega
  · change (asmIndex g >>= fun a => .ok (Instr.readGrid a)) = _
    simp only [asmIndex, operand_bind_eq_error_iff]
    omega
  · change (asmChipWord w1 >>= fun d1 => asmChipWord w2 >>= fun d2 => .ok (Instr.transfer d1 d2)) = _
    simp only [asmChipWord, operand_bind_eq_error_iff]
    omega
  · change (asmTimer tw n >>= fun d => .ok (Instr.tick d)) = _
    simp only [asmTimer, operand_bind_eq_error_iff]
    omega
  · change (asmTimer tw n >>= fun d => .ok (Instr.setDwell d)) = _
    simp only [asmTimer, operand_bind_eq_error_iff]
    omega

end Sys2Proof.Machine
end

section
/-! SUPPORT. The Bit Packer (40_bit_packer.md): the laws of the packing function (R109) and the PACK command (R107, R108). -/

namespace Sys2Proof.Machine

section Packing

variable {c : Config} {g i : Nat} {m : Word64}

/-! ### The combined word of a valid configuration, by field -/

/-- The grid-select field is one-hot at g, and empty for g ≥ G (R100, R106). -/
theorem combine_gridBit (hv : validConfig c = true) (hi : i < c.grids) :
    (combine c g m).getLsbD i = (decide (g < c.grids) && decide (i = g)) := by
  obtain ⟨-, hG, -⟩ := validConfig_layout hv
  exact (combinedWordLayout c g m i hv (by omega)).1 hi

/-- Segment i of the mask stands at bit G + i (R101). -/
theorem combine_segmentBit (hv : validConfig c = true) (hi : i < c.segments) :
    (combine c g m).getLsbD (c.grids + i) = m.getLsbD i := by
  obtain ⟨-, -, -, hGS, -⟩ := validConfig_layout hv
  obtain ⟨-, hseg, -⟩ := combinedWordLayout c g m (c.grids + i) hv (by omega)
  rw [hseg (by omega) (by omega), Nat.add_sub_cancel_left]

/-- Neither field reaches bit G + S (R102). -/
theorem combine_above (hi : c.grids + c.segments ≤ i) : (combine c g m).getLsbD i = false := by
  have hsel : ¬(g < c.grids ∧ i = g) := by omega
  rw [combine_getLsbD, ← Bool.decide_and, decide_eq_false hsel, decide_eq_false (Nat.not_lt.2 hi)]
  simp

/-- With no segment in the mask the combined word is the grid-select field (R102). -/
theorem combine_zero (c : Config) (g : Nat) : combine c g 0#64 = gridSel c g := by
  rw [combine, segField, segmentBits, lowBits_of_lt (Nat.two_pow_pos _), BitVec.setWidth_zero, BitVec.zero_shiftLeft,
    BitVec.or_zero]

/-! ### The chip words -/

/-- MASK1 takes no bit from word1 (R109 item 6). -/
theorem word1_eq (c : Config) (g : Nat) (m : Word64) : word1 c g m = (combine c g m).extractLsb' 0 20 := and_mask1 _

/-- MASK2 takes no bit from word2: those it would clear stand at G + S or above (R109 item 6). -/
theorem word2_eq (c : Config) (g : Nat) (m : Word64) : word2 c g m = (combine c g m).extractLsb' 20 20 := by
  apply BitVec.eq_of_getLsbD_eq
  intro i hi
  rw [word2_getLsbD, BitVec.getLsbD_extractLsb', decide_eq_true hi, Bool.true_and, Bool.true_and]
  by_cases hlow : i < c.grids + c.segments - 20
  · rw [decide_eq_true hlow, Bool.true_and]
  · rw [decide_eq_false hlow, Bool.false_and, combine_above (by omega)]

/-- Segment i of the mask is word1 bit G + i where that is one of chip 1's outputs (R109 item 7). -/
theorem word1_segmentBit (hv : validConfig c = true) (hi : i < c.segments) (h20 : c.grids + i < 20) :
    (word1 c g m).getLsbD (c.grids + i) = m.getLsbD i := by
  rw [word1_getLsbD, decide_eq_true h20, Bool.true_and, combine_segmentBit hv hi]

/-- Segment i of the mask is word2 bit G + i - 20 where bit G + i lies beyond chip 1's outputs (R109 item 7). -/
theorem word2_segmentBit (hv : validConfig c = true) (hi : i < c.segments) (h20 : 20 ≤ c.grids + i) :
    (word2 c g m).getLsbD (c.grids + i - 20) = m.getLsbD i := by
  obtain ⟨-, -, -, hGS, -⟩ := validConfig_layout hv
  have hout : c.grids + i - 20 < 20 := by omega
  rw [word2_eq, BitVec.getLsbD_extractLsb', decide_eq_true hout, Bool.true_and, Nat.add_sub_of_le h20,
    combine_segmentBit hv hi]

/-- A grid-select bit is one of chip 1's outputs, since G is at most 16 (R9), so the packed words of an empty mask are
that bit alone. -/
theorem words_zero (hv : validConfig c = true) (hg : g < c.grids) :
    word1 c g 0#64 = 1#20 <<< g ∧ word2 c g 0#64 = 0#20 := by
  obtain ⟨-, hG, -⟩ := validConfig_layout hv
  rw [word1_eq, word2_eq, combine_zero]
  constructor
  · apply BitVec.eq_of_getLsbD_eq
    intro i hi
    rw [← BitVec.twoPow_eq, BitVec.getLsbD_twoPow, BitVec.getLsbD_extractLsb', gridSel_getLsbD]
    simp [hi, hg, show i < 40 by omega, show g < 20 by omega, eq_comm]
  · apply BitVec.eq_of_getLsbD_eq
    intro i _
    rw [BitVec.getLsbD_extractLsb', gridSel_getLsbD]
    simp [show 20 + i ≠ g by omega]

/-- The packing function reads G and S of the configuration and nothing else (R107). -/
theorem pack_congr {c c' : Config} (hG : c.grids = c'.grids) (hS : c.segments = c'.segments) (g : Nat) (m : Word64) :
    pack c g m = pack c' g m := by
  have hcombine : combine c g m = combine c' g m := by
    apply BitVec.eq_of_getLsbD_eq
    intro i _
    rw [combine_getLsbD, combine_getLsbD, hG, hS]
  rw [pack, pack, word1_eq, word1_eq, word2_eq, word2_eq, hcombine]

end Packing

/-- Settles O26: by item, the fields of the combined word, the masks, and the place of each segment in the chip words. -/
theorem packerLaws : Obligations.PackerLaws := by
  intro c g m hv
  refine ⟨fun hg i hi => ?_, fun hg i hi => ?_, fun i hi => ?_, fun i hi => ?_, fun x => ⟨?_, ?_⟩, word1_eq c g m,
    word2_eq c g m, fun _ i hi => ⟨word1_segmentBit hv hi, word2_segmentBit hv hi⟩⟩
  · rw [combine_gridBit hv hi, decide_eq_true hg, Bool.true_and, decide_eq_true_eq]
  · rw [combine_gridBit hv hi, decide_eq_false (Nat.not_lt.2 hg), Bool.false_and]
  · rw [word2_getLsbD, decide_eq_false (Nat.not_lt.2 hi), Bool.and_false, Bool.false_and]
  · rw [word1_getLsbD, combine_above hi, Bool.and_false]
  · rw [BitVec.and_assoc, BitVec.and_self]
  · rw [and_mask1]

/-- Settles O47: CLEAR leaves an all-zero entry at every grid below G (R160), so what is packed is the grid-select field. -/
theorem afterClearNoSegmentIsPacked : Obligations.AfterClearNoSegmentIsPacked := by
  intro s t g hinv h hg
  have hread : memRead t g = 0#64 := by
    obtain rfl := Host.Outcome.next.inj h
    exact clearBelow_read_lt hinv.storeWf hg
  rw [hread]
  exact words_zero hinv.cfgValid hg

/-! ### The PACK command -/

/-- PACK completes with the word pair as its one response and changes nothing else (R107, R108). -/
theorem exec_pack (s : State) (g : BitVec 8) (m : Word64) :
    exec (.pack g m) s =
      .next { s with responses := s.responses ++ [wordPair (pack s.cfg g.toNat m).1 (pack s.cfg g.toNat m).2] } := rfl

/-- Settles O24: `exec_pack`, and the four fields of a word pair (R82). -/
theorem packResponds : Obligations.PackResponds := fun s g m =>
  ⟨_, exec_pack s g m, wordPair_low .., wordPair_high .., wordPair_gap .., wordPair_top ..⟩

/-- Settles O25: by `pack_congr` the second block's response is the first one's. -/
theorem packIsPure : Obligations.PackIsPure := by
  intro s1 s2 g m hG hS
  refine ⟨_, exec_pack s1 g m, ?_⟩
  rw [exec_pack, pack_congr hG hS]

end Sys2Proof.Machine
end

section
/-! SUPPORT. The Scan Scheduler (41_scan_scheduler.md): when a TICK advances (R120, R121), what it then does (R122, R123),
the dwell in force (R124, R127, R128), and sequences of TICKs (R125, R129). -/

namespace Sys2Proof.Machine

/-! ### Timer arithmetic (R120) -/

/-- Subtraction of 64-bit words, narrowed to TW bits, is subtraction mod 2^TW: 2^TW divides 2^64. -/
theorem lowBits_sub_toNat {tw : Nat} (htw : tw ≤ 64) (a b : Word64) :
    ((lowBits tw (a - b)).toNat : Int) = ((a.toNat : Int) - (b.toNat : Int)) % (2 : Int) ^ tw := by
  have hsub : ((a - b).toNat : Int) = ((a.toNat : Int) - (b.toNat : Int)) % (2 : Int) ^ 64 := by
    rw [BitVec.toNat_sub]
    omega
  rw [lowBits_toNat, Int.natCast_mod, hsub, Nat.cast_pow, Nat.cast_ofNat, Int.emod_emod_of_dvd _ (pow_dvd_pow 2 htw)]

/-- Settles O27: `lowBits_sub_toNat`. -/
theorem elapsedTimeWrapsAround : Obligations.ElapsedTimeWrapsAround := fun s now htw =>
  lowBits_sub_toNat htw now s.lastTs

/-- What a TW-bit register keeps of a value is that value mod 2^TW. -/
theorem timerBits_modEq (c : Config) (v : Word64) :
    ((timerBits c v).toNat : Int) ≡ (v.toNat : Int) [ZMOD (2 : Int) ^ c.timerWidth] := by
  rw [timerBits, lowBits_toNat, Int.natCast_mod, Nat.cast_pow, Nat.cast_ofNat]
  exact Int.mod_modEq _ _

/-! ### When a TICK advances (R121) -/

theorem advances_iff {s : State} {now : Word64} : advances s now = true ↔ s.dwell.toNat ≤ (elapsed s now).toNat :=
  decide_eq_true_iff

theorem advances_eq_false_iff {s : State} {now : Word64} :
    advances s now = false ↔ (elapsed s now).toNat < s.dwell.toNat := by
  rw [advances, decide_eq_false_iff_not, Nat.not_le]

/-- The condition of R121 on the timer values themselves. -/
theorem advances_iff_emod {s : State} (htw : s.cfg.timerWidth ≤ 64) {now : Word64} :
    advances s now = true ↔
      (s.dwell.toNat : Int) ≤ ((now.toNat : Int) - (s.lastTs.toNat : Int)) % (2 : Int) ^ s.cfg.timerWidth := by
  rw [advances_iff, ← elapsedTimeWrapsAround s now htw, Int.ofNat_le]

/-- A TICK that does not advance changes nothing (R121). -/
theorem exec_tick_waits {s : State} {now : Word64} (h : advances s now = false) : exec (.tick now) s = .next s :=
  execTick_waits h

/-- A TICK that advances scans, where there is a transport (R123). -/
theorem exec_tick_scans {s : State} {now : Word64} (h : advances s now = true) (hp : s.cfg.transportPresent = true) :
    exec (.tick now) s = .next (scanned now s) :=
  execTick_advances h hp

/-! ### The state after a scan, field by field (R122, R123) -/

section Scanned

variable {s : State}

@[simp] theorem scanned_cfg (now : Word64) : (scanned now s).cfg = s.cfg := by rw [scanned_eq]
@[simp] theorem scanned_seg (now : Word64) : (scanned now s).seg = s.seg := by rw [scanned_eq]
@[simp] theorem scanned_dwell (now : Word64) : (scanned now s).dwell = s.dwell := by rw [scanned_eq]
@[simp] theorem scanned_lastTs (now : Word64) : (scanned now s).lastTs = timerBits s.cfg now := by rw [scanned_eq]

theorem scanned_cursor_toNat (hv : validConfig s.cfg = true) (now : Word64) :
    (scanned now s).cursor.toNat = (s.cursor.toNat + 1) % s.cfg.grids := by
  obtain ⟨h1, h16, -⟩ := validConfig_layout hv
  rw [scanned_eq]
  exact beginScan_cursor_toNat h1 h16

/-- A scan sends the frame of the grid after the cursor. -/
theorem scanned_trace (hv : validConfig s.cfg = true) (now : Word64) :
    (scanned now s).trace = s.trace ++ gridFrame s ((s.cursor.toNat + 1) % s.cfg.grids) := by
  obtain ⟨h1, h16, -⟩ := validConfig_layout hv
  rw [scanned_eq, ← beginScan_cursor_toNat h1 h16]
  rfl

/-- A scan begun IDLE writes the cursor, the trace, LOAD and `last_ts`, and nothing else. -/
theorem scanned_eq_of_inv (h : Inv s) (now : Word64) :
    scanned now s =
      { s with
        cursor := BitVec.ofNat 4 ((s.cursor.toNat + 1) % s.cfg.grids)
        trace := s.trace ++ gridFrame s ((s.cursor.toNat + 1) % s.cfg.grids)
        load := true
        lastTs := timerBits s.cfg now } := by
  rw [← scanned_trace h.cfgValid now, scanned_eq, ← h.schedIdle]
  rfl

/-- A grid's frame is a function of the configuration and the store. -/
theorem gridFrame_congr {t : State} (hcfg : t.cfg = s.cfg) (hseg : t.seg = s.seg) : gridFrame t = gridFrame s := by
  funext g
  rw [gridFrame, gridFrame, memRead, memRead, hcfg, hseg]

/-- A TICK that changes the trace has advanced. -/
theorem exec_tick_of_trace_ne {t : State} {now : Word64} (h : exec (.tick now) s = .next t) (hne : t.trace ≠ s.trace) :
    advances s now = true ∧ t = scanned now s := by
  rcases execTick_next h with ⟨-, rfl⟩ | ⟨hadv, -, ht⟩
  · exact absurd rfl hne
  · exact ⟨hadv, ht⟩

end Scanned

/-! ### One command -/

/-- Settles O8: with no word waiting `step` and `stepMarked` take their first branch. -/
theorem nothingHappensWithoutACommand : Obligations.NothingHappensWithoutACommand := by
  intro s hp
  constructor
  · rw [step, hp]
  · rw [stepMarked, hp]

/-- Settles O28: the TICK does not advance. -/
theorem tickBeforeTheDwellDoesNothing : Obligations.TickBeforeTheDwellDoesNothing := fun _ _ hlt =>
  exec_tick_waits (advances_eq_false_iff.2 hlt)

/-- Settles O30: the TICK faults, and what a fault leaves of a TICK is the abandoned scan. -/
theorem tickWithoutTransportFaults : Obligations.TickWithoutTransportFaults := by
  intro s now habsent hle
  have hf : exec (.tick now) s = .fault .transportUnavailable := execTick_faults (advances_iff.2 hle) habsent
  exact ⟨hf, execMarked_of_fault hf⟩

/-- Settles O29: the three outcomes of a TICK, each by its lemma; `last_ts` keeps all of a TW-bit now. -/
theorem tickScansTheNextGridAfterTheDwell : Obligations.TickScansTheNextGridAfterTheDwell := by
  intro s now hinv hnow
  refine ⟨tickBeforeTheDwellDoesNothing s now, fun hle hpresent => ?_, fun hle habsent => ?_⟩
  · rw [exec_tick_scans (advances_iff.2 hle) hpresent, scanned_eq_of_inv hinv, timerBits_of_lt hnow]
  · obtain ⟨hf, hleft⟩ := tickWithoutTransportFaults s now habsent hle
    obtain ⟨h1, h16, -⟩ := validConfig_layout hinv.cfgValid
    rw [hleft]
    exact ⟨hf, beginScan_cursor_toNat h1 h16, rfl, rfl⟩

/-- Settles O31: the TICK has scanned; a remainder mod G is below G, and 0 for G = 1. -/
theorem cursorAdvancesModuloG : Obligations.CursorAdvancesModuloG := by
  intro s t now hinv hle h
  obtain ⟨h1, -⟩ := validConfig_layout hinv.cfgValid
  obtain ⟨hwaits, -⟩ | ⟨-, -, rfl⟩ := execTick_next h
  · rw [advances_iff.2 hle] at hwaits
    cases hwaits
  · rw [scanned_cursor_toNat hinv.cfgValid]
    exact ⟨rfl, Nat.mod_lt _ h1, fun hone => by rw [hone, Nat.mod_one]⟩

/-- Settles O32: the register keeps all of a TW-bit value. -/
theorem setDwellWritesDwell : Obligations.SetDwellWritesDwell := by
  intro s d hd
  change Host.Outcome.next (setDwellReg d s) = _
  rw [setDwellReg, timerBits_of_lt hd]

/-- Settles O33: the response is the register as it stands. -/
theorem getDwellResponds : Obligations.GetDwellResponds := fun _ => rfl

/-- Settles O34: SET_DWELL leaves `last_ts`, and so the elapsed time, as it was; the TICK compares that with d. -/
theorem newDwellHoldsFromTheNextTick : Obligations.NewDwellHoldsFromTheNextTick := by
  intro s s1 d now hinv hpresent hd h
  obtain rfl := Host.Outcome.next.inj ((setDwellWritesDwell s d hd).symm.trans h)
  refine ⟨rfl, tickBeforeTheDwellDoesNothing { s with dwell := d } now, fun hle => ?_⟩
  have hadv : advances { s with dwell := d } now = true := advances_iff.2 hle
  exact ⟨_, exec_tick_scans hadv hpresent, scanned_cursor_toNat (s := { s with dwell := d }) hinv.cfgValid now,
    scanned_trace (s := { s with dwell := d }) hinv.cfgValid now⟩

/-! ### Counting the advances from the operands alone -/

section AdvanceCount

variable {tw : Nat} {dwell : Word64} {is : List Instr}

/-- A command that is no TICK sets the dwell at most. -/
theorem advanceCount_cons_of_ne_tick {i : Instr} (hi : ∀ now, i ≠ .tick now) (last : Word64) :
    advanceCount tw dwell last (i :: is) = advanceCount tw (dwellAfter dwell i) last is := by
  cases i with
  | tick now => exact absurd rfl (hi now)
  | pack | transfer | setDwell | getDwell | clear | setSegment | setGrid | readGrid | getBrightness => rfl

/-- The count reads the time of the last advance mod 2^TW only. -/
theorem advanceCount_congr {last last' : Word64}
    (h : (last.toNat : Int) ≡ (last'.toNat : Int) [ZMOD (2 : Int) ^ tw]) :
    advanceCount tw dwell last is = advanceCount tw dwell last' is := by
  induction is generalizing dwell with
  | nil => rfl
  | cons i is ih =>
    cases i with
    | tick now => rw [advanceCount, advanceCount, (h.sub_left (now.toNat : Int)).eq, ih]
    | pack | transfer | setDwell | getDwell | clear | setSegment | setGrid | readGrid | getBrightness => exact ih

/-- The count's condition on a TICK is the block's own. -/
theorem advanceCount_tick {s : State} (htw : s.cfg.timerWidth ≤ 64) (now : Word64) :
    advanceCount s.cfg.timerWidth s.dwell s.lastTs (.tick now :: is) =
      if advances s now = true then advanceCount s.cfg.timerWidth s.dwell now is + 1
      else advanceCount s.cfg.timerWidth s.dwell s.lastTs is :=
  if_congr (advances_iff_emod htw).symm rfl rfl

/-- After a scan at now the count goes on from now, of which `last_ts` keeps TW bits. -/
theorem advanceCount_scanned_lastTs {s : State} (now : Word64) :
    advanceCount s.cfg.timerWidth dwell (scanned now s).lastTs is = advanceCount s.cfg.timerWidth dwell now is := by
  rw [scanned_lastTs]
  exact advanceCount_congr (timerBits_modEq s.cfg now)

end AdvanceCount

/-! ### Lists of commands, first command first -/

theorem execAll_cons_of_next {i : Instr} {s u : State} (h : exec i s = .next u) (is : List Instr) :
    execAll (i :: is) s = execAll is u := by
  rw [execAll, h]

theorem execAll_cons_next {i : Instr} {is : List Instr} {s t : State} (h : execAll (i :: is) s = .next t) :
    ∃ u, exec i s = .next u ∧ execAll is u = .next t := by
  cases he : exec i s with
  | next u => exact ⟨u, rfl, (execAll_cons_of_next he is).symm.trans h⟩
  | fault r => simp [execAll, he] at h
  | refused r => simp [execAll, he] at h

/-! ### Any sequence of TICKs (R125, R129 item 1) -/

/-- The frames of the k grids after grid c, in ascending order with wrap-around. -/
def rotationFrames (s : State) (c k : Nat) : List PinEvent :=
  (List.range k).flatMap fun j => gridFrame s ((c + 1 + j) % s.cfg.grids)

theorem rotationFrames_succ (s : State) (c k : Nat) :
    rotationFrames s c (k + 1) =
      gridFrame s ((c + 1) % s.cfg.grids) ++ rotationFrames s ((c + 1) % s.cfg.grids) k := by
  simp only [rotationFrames, List.range_succ_eq_map, List.flatMap_cons, List.flatMap_map, Nat.add_assoc,
    Nat.mod_add_mod, Nat.succ_eq_add_one, Nat.add_comm 1]

theorem rotationFrames_congr {s t : State} (hcfg : t.cfg = s.cfg) (hseg : t.seg = s.seg) :
    rotationFrames t = rotationFrames s := by
  funext c k
  rw [rotationFrames, rotationFrames, gridFrame_congr hcfg hseg, hcfg]

/-- A TICK that advances puts its grid before those that the rest scans from the grid it leaves the cursor on; one that
waits leaves everything to the rest. -/
theorem execAll_ticks {s : State} (hinv : Inv s) (hpresent : s.cfg.transportPresent = true) (nows : List Word64) :
    ∃ t k, execAll (nows.map .tick) s = .next t ∧
      k = advanceCount s.cfg.timerWidth s.dwell s.lastTs (nows.map .tick) ∧ t.seg = s.seg ∧ t.dwell = s.dwell ∧
      t.cursor.toNat = (s.cursor.toNat + k) % s.cfg.grids ∧
      t.trace = s.trace ++ rotationFrames s s.cursor.toNat k := by
  induction nows generalizing s with
  | nil => exact ⟨s, 0, rfl, rfl, rfl, rfl, (Nat.mod_eq_of_lt hinv.cursorIn).symm, (List.append_nil _).symm⟩
  | cons now nows ih =>
    obtain ⟨-, -, -, -, htw⟩ := validConfig_layout hinv.cfgValid
    rw [List.map_cons, advanceCount_tick htw]
    cases hadv : advances s now with
    | false =>
      rw [execAll_cons_of_next (exec_tick_waits hadv), if_neg Bool.false_ne_true]
      exact ih hinv hpresent
    | true =>
      obtain ⟨t, k, hexec, hk, hseg, hdwell, hcursor, htrace⟩ := ih (inv_scanned hinv now) (by rwa [scanned_cfg])
      rw [scanned_cfg, scanned_dwell, advanceCount_scanned_lastTs] at hk
      rw [scanned_cfg, scanned_cursor_toNat hinv.cfgValid, Nat.mod_add_mod, Nat.add_assoc, Nat.add_comm 1] at hcursor
      rw [scanned_trace hinv.cfgValid, scanned_cursor_toNat hinv.cfgValid,
        rotationFrames_congr (scanned_cfg now) (scanned_seg now), List.append_assoc, ← rotationFrames_succ] at htrace
      rw [execAll_cons_of_next (exec_tick_scans hadv hpresent), if_pos rfl]
      exact ⟨t, k + 1, hexec, by rw [hk], hseg.trans (scanned_seg now), hdwell.trans (scanned_dwell now), hcursor,
        htrace⟩

/-- Settles O35: `execAll_ticks`. -/
theorem ticksScanTheGridsInRotation : Obligations.TicksScanTheGridsInRotation := fun _ nows hinv hpresent =>
  execAll_ticks hinv hpresent nows

/-! ### TICKs at least a dwell apart (R129 item 2) -/

/-- The TW-bit timer value at a true time (R130). -/
def timerValue (tw x : Nat) : Word64 := BitVec.ofNat 64 (x % 2 ^ tw)

theorem timerValue_toNat {tw : Nat} (htw : tw ≤ 64) (x : Nat) : (timerValue tw x).toNat = x % 2 ^ tw := by
  rw [timerValue, BitVec.toNat_ofNat]
  exact Nat.mod_eq_of_lt (Nat.lt_of_lt_of_le (Nat.mod_lt _ (Nat.two_pow_pos tw)) (Nat.pow_le_pow_right two_pos htw))

/-- Between true times less than 2^TW apart the timer values' difference mod 2^TW is the true one. -/
theorem timerValue_sub_emod {tw a b : Nat} (htw : tw ≤ 64) (hle : a ≤ b) (hlt : b < a + 2 ^ tw) :
    (((timerValue tw b).toNat : Int) - ((timerValue tw a).toNat : Int)) % (2 : Int) ^ tw = (b : Int) - (a : Int) := by
  have hlt' : (b : Int) < (a : Int) + (2 : Int) ^ tw := by exact_mod_cast hlt
  rw [timerValue_toNat htw, timerValue_toNat htw, Int.natCast_mod, Int.natCast_mod, Nat.cast_pow, Nat.cast_ofNat,
    ← Int.sub_emod]
  exact Int.emod_eq_of_lt (by omega) (by omega)

/-- With the last advance at the first of the times, every TICK at a later one advances. -/
theorem advanceCount_of_spaced {tw : Nat} (htw : tw ≤ 64) {dwell : Word64} {a : Nat} {ts : List Nat}
    (h : spaced dwell.toNat (2 ^ tw) (a :: ts)) :
    advanceCount tw dwell (timerValue tw a) (ts.map fun x => .tick (timerValue tw x)) = ts.length := by
  induction ts generalizing a with
  | nil => rfl
  | cons b ts ih =>
    obtain ⟨hlow, hhigh, hrest⟩ := h
    have hdwell : (dwell.toNat : Int) ≤
        (((timerValue tw b).toNat : Int) - ((timerValue tw a).toNat : Int)) % (2 : Int) ^ tw := by
      rw [timerValue_sub_emod htw (by omega) hhigh]
      omega
    rw [List.map_cons, advanceCount, if_pos hdwell, ih hrest, List.length_cons]

/-- Settles O36: `execAll_ticks`, where the count is the number of TICKs: the first advances, and then every other one
by `advanceCount_of_spaced`. -/
theorem ticksADwellApartAllAdvance : Obligations.TicksADwellApartAllAdvance := by
  intro s t0 ts hinv hpresent hspaced hfirst
  obtain ⟨-, -, -, -, htw⟩ := validConfig_layout hinv.cfgValid
  have hadv : advances s (timerValue s.cfg.timerWidth t0) = true := advances_iff.2 hfirst
  have hcount : advanceCount s.cfg.timerWidth s.dwell s.lastTs
      (((t0 :: ts).map (timerValue s.cfg.timerWidth)).map .tick) = ts.length + 1 := by
    rw [List.map_cons, List.map_cons, advanceCount_tick htw, if_pos hadv, List.map_map]
    exact congrArg (· + 1) (advanceCount_of_spaced htw hspaced)
  obtain ⟨t, k, hexec, hk, -, -, hcursor, htrace⟩ :=
    execAll_ticks hinv hpresent ((t0 :: ts).map (timerValue s.cfg.timerWidth))
  rw [hk, hcount] at hcursor htrace
  rw [List.map_map] at hexec
  exact ⟨t, hexec, hcursor, htrace⟩

/-! ### Between two advances (R129 item 4) -/

/-- The dwell a command leaves is the one it sets, or the one before (R124, R127). -/
theorem exec_next_dwell {i : Instr} {s t : State} (hwf : i.wf s.cfg.timerWidth = true) (h : exec i s = .next t) :
    t.dwell = dwellAfter s.dwell i := by
  obtain ⟨-, -, hdwell, -⟩ := eachPieceOfStateHasItsWriters i s t h
  cases i with
  | setDwell d =>
    obtain rfl := Host.Outcome.next.inj ((setDwellWritesDwell s d (of_decide_eq_true hwf)).symm.trans h)
    rfl
  | pack | tick | transfer | getDwell | clear | setSegment | setGrid | readGrid | getBrightness =>
    exact hdwell fun _ => Instr.noConfusion

/-- A command that does not count as an advance leaves `last_ts`, and the rest to be counted under the dwell it leaves. -/
theorem exec_next_of_no_advance {i : Instr} {is : List Instr} {s t : State} (htw : s.cfg.timerWidth ≤ 64)
    (h : exec i s = .next t) (hcount : advanceCount s.cfg.timerWidth s.dwell s.lastTs (i :: is) = 0) :
    t.lastTs = s.lastTs ∧ advanceCount s.cfg.timerWidth (dwellAfter s.dwell i) s.lastTs is = 0 := by
  by_cases hi : ∀ now, i ≠ .tick now
  · obtain ⟨-, hscan, -, -⟩ := eachPieceOfStateHasItsWriters i s t h
    obtain ⟨-, hlast, -⟩ := hscan hi
    exact ⟨hlast, (advanceCount_cons_of_ne_tick hi s.lastTs).symm.trans hcount⟩
  · obtain ⟨now, rfl⟩ := not_forall_not.1 hi
    rw [advanceCount_tick htw] at hcount
    obtain ⟨hwaits, rfl⟩ | ⟨hadv, -, -⟩ := execTick_next h
    · rw [hwaits] at hcount
      exact ⟨rfl, hcount⟩
    · rw [if_pos hadv] at hcount
      exact absurd hcount (Nat.succ_ne_zero _)

/-- Commands among which no TICK advances keep the configuration and `last_ts`, and leave the dwell in force. -/
theorem execAll_next_of_no_advance {is : List Instr} {s t : State} (htw : s.cfg.timerWidth ≤ 64)
    (hwf : ∀ i ∈ is, i.wf s.cfg.timerWidth = true) (h : execAll is s = .next t)
    (hcount : advanceCount s.cfg.timerWidth s.dwell s.lastTs is = 0) :
    t.cfg = s.cfg ∧ t.lastTs = s.lastTs ∧ t.dwell = dwellInForce is s.dwell := by
  induction is generalizing s with
  | nil =>
    obtain rfl := Host.Outcome.next.inj h
    exact ⟨rfl, rfl, rfl⟩
  | cons i is ih =>
    obtain ⟨u, hexec, hrest⟩ := execAll_cons_next h
    obtain ⟨hi, his⟩ := List.forall_mem_cons.1 hwf
    have hcfg : u.cfg = s.cfg := by rw [exec_next_writes hexec]
    have hdwell := exec_next_dwell hi hexec
    obtain ⟨hlast, hcount⟩ := exec_next_of_no_advance htw hexec hcount
    rw [← hcfg] at htw his
    rw [← hcfg, ← hdwell, ← hlast] at hcount
    obtain ⟨hcfg', hlast', hdwell'⟩ := ih htw his hrest hcount
    exact ⟨hcfg'.trans hcfg, hlast'.trans hlast, hdwell'.trans (by rw [hdwell]; rfl)⟩

/-- Settles O37: the first TICK records now1 mod 2^TW, which the commands between keep, with the dwell they leave in force;
the second TICK advances, so that dwell has elapsed since. -/
theorem advancesAreADwellApart : Obligations.AdvancesAreADwellApart := by
  intro s s1 s2 t now1 now2 is hv hwf htick1 hne1 hbetween hcount htick2 hne2
  obtain ⟨-, -, -, -, htw⟩ := validConfig_layout hv
  obtain ⟨-, rfl⟩ := exec_tick_of_trace_ne htick1 hne1
  obtain ⟨hadv2, -⟩ := exec_tick_of_trace_ne htick2 hne2
  obtain ⟨hcfg, hlast, hdwell⟩ := execAll_next_of_no_advance (s := scanned now1 s) (by rwa [scanned_cfg])
    (by rwa [scanned_cfg]) hbetween (by rwa [scanned_cfg, scanned_dwell, advanceCount_scanned_lastTs])
  rw [scanned_cfg] at hcfg
  rw [scanned_lastTs] at hlast
  rw [scanned_dwell] at hdwell
  rw [advances_iff_emod (hcfg ▸ htw), hcfg, hlast, hdwell,
    ((timerBits_modEq s.cfg now1).sub_left (now2.toNat : Int)).eq] at hadv2
  exact ⟨hdwell, hadv2⟩

end Sys2Proof.Machine
end

section
/-! SUPPORT. The Transfer Driver (42_transfer_driver.md): what TRANSFER sends and when it stops (R140, R141, R144), and how a
command that completes extends the trace (R142). -/

namespace Sys2Proof.Machine

/-! ### TRANSFER -/

/-- With the transport, TRANSFER sends the frame of its words, leaves LOAD high and changes nothing else (R140, R145). -/
theorem exec_transfer_present {s : State} (hp : s.cfg.transportPresent = true) (w1 w2 : ChipWord) :
    exec (.transfer w1 w2) s = .next { s with trace := s.trace ++ frame s.cfg w1 w2, load := true } :=
  doTransfer_present hp w1 w2

/-- Without the transport, TRANSFER ends in the fault (R144). -/
theorem exec_transfer_absent {s : State} (hp : s.cfg.transportPresent = false) (w1 w2 : ChipWord) :
    exec (.transfer w1 w2) s = .fault .transportUnavailable :=
  doTransfer_absent hp w1 w2

/-- A word's bytes as bit fields: the first is four zero bits above the top nibble (R73). -/
theorem wordBytes_eq (w : ChipWord) :
    wordBytes w = [0#4 ++ w.extractLsb' 16 4, w.extractLsb' 8 8, w.extractLsb' 0 8] := by
  rw [wordBytes, BitVec.setWidth_eq_append (by decide), BitVec.cast_eq]

/-- Settles O38: TRANSFER sends the frame, whose one choice is by the number of chips; its bytes are the bit fields of
`wordBytes_eq`. -/
theorem transferSendsTheFrame : Obligations.TransferSendsTheFrame := by
  intro s w1 w2
  refine ⟨fun hp hc => ?_, fun hp hc => ?_, fun hp => exec_transfer_absent hp w1 w2⟩
  · rw [exec_transfer_present hp, frame, if_pos hc, wordBytes_eq, wordBytes_eq]
    rfl
  · rw [exec_transfer_present hp, frame, if_neg hc, wordBytes_eq]
    rfl

/-- Settles O39: the fault, and what a fault leaves of a TRANSFER is the state before it. -/
theorem transferWithoutTransportFaults : Obligations.TransferWithoutTransportFaults := fun _ w1 w2 hp =>
  have hf := exec_transfer_absent hp w1 w2
  ⟨hf, execMarked_of_fault hf⟩

/-! ### Whole frames -/

/-- Settles O20: a TICK waits or scans, and a scan sends one frame; a TRANSFER sends one frame; no other command writes the
trace. -/
theorem theTraceGrowsByWholeFrames : Obligations.TheTraceGrowsByWholeFrames := by
  intro i s t h
  obtain ⟨-, -, -, hkept⟩ := eachPieceOfStateHasItsWriters i s t h
  cases i with
  | tick now =>
    obtain ⟨-, rfl⟩ | ⟨-, -, rfl⟩ := execTick_next h
    · exact .inl rfl
    · rw [scanned_eq]
      exact .inr ⟨_, _, rfl⟩
  | transfer w1 w2 =>
    obtain ⟨-, rfl⟩ := doTransfer_next h
    exact .inr ⟨w1, w2, rfl⟩
  | pack | setDwell | getDwell | clear | setSegment | setGrid | readGrid | getBrightness =>
    obtain ⟨htrace, -⟩ := hkept (fun _ => Instr.noConfusion) (fun _ _ => Instr.noConfusion)
    exact .inl htrace

end Sys2Proof.Machine
end

section
/-! SUPPORT. The display content commands (43_display_content.md): what CLEAR, SET_SEGMENT, SET_GRID and the expansion of
DISPLAY_STRING leave in the store, what READ_GRID and GET_BRIGHTNESS answer, and the font. -/

namespace Sys2Proof.Machine

/-! ### Reads of the store after a write -/

/-- `MemRead(g)` after `MemWrite(g, v)` gives v (R50). -/
theorem memRead_memWrite_same {s : State} (hs : s.seg.wf) (g : Nat) (v : Word64) : memRead (memWrite g v s) g = v :=
  Memory.read_write_same hs g v

/-- `MemWrite(g, v)` leaves every other entry alone (R53). -/
theorem memRead_memWrite_other {g k : Nat} (hk : k ≠ g) (v : Word64) (s : State) :
    memRead (memWrite g v s) k = memRead s k :=
  Memory.read_write_other hk s.seg v

/-! ### CLEAR -/

@[simp] theorem clearBelow_cfg (n : Nat) (s : State) : (clearBelow n s).cfg = s.cfg := by rw [clearBelow_eq]

/-- Clearing entries that read 0 already changes nothing: the canonical form leaves one store for what is read (log 6). -/
theorem clearBelow_eq_self {n : Nat} {s : State} (hs : s.seg.wf) (hz : ∀ g, g < n → memRead s g = 0#64) :
    clearBelow n s = s := by
  have hseg : (clearBelow n s).seg = s.seg := by
    refine Memory.eq_of_read_eq (clearBelow_wf hs n) hs fun g => ?_
    by_cases hg : g < n
    · exact (clearBelow_read_lt hs hg).trans (hz g hg).symm
    · exact clearBelow_read_ge s (Nat.le_of_not_lt hg)
  rw [clearBelow_eq, hseg]

/-- Settles O42: the reads are those after the loop of `clearBelow`, and a second loop finds every entry 0. -/
theorem clearZeroesEveryEntry : Obligations.ClearZeroesEveryEntry := by
  intro s hs
  have hzero : ∀ g, g < s.cfg.grids → memRead (clearBelow s.cfg.grids s) g = 0#64 := fun _ => clearBelow_read_lt hs
  refine ⟨clearBelow s.cfg.grids s, rfl, clearBelow_eq .., hzero, fun _ => clearBelow_read_ge s, ?_⟩
  rw [exec, execClear, clearBelow_cfg, clearBelow_eq_self (clearBelow_wf hs _) hzero]

/-! ### SET_SEGMENT and SET_GRID -/

/-- Settles O43: one write of entry g, of the entry with bit s put (`putBit_getLsbD`); that s < S is a bit of a 64-bit entry
is what the valid configuration is needed for. -/
theorem setSegmentChangesOneBit : Obligations.SetSegmentChangesOneBit := by
  intro s g sg v hv hs
  constructor
  · intro hg hsg
    have hlayout := validConfig_layout hv
    refine ⟨_, execSetSegment_in hg hsg v, rfl, fun j _ => ?_, fun k hk => memRead_memWrite_other hk _ s⟩
    rw [memRead_memWrite_same hs, putBit_getLsbD _ (by omega)]
  · intro hout
    exact execSetSegment_out (by omega) v

/-- Settles O44: one write of entry g, of the mask's low S bits. -/
theorem setGridReplacesOneEntry : Obligations.SetGridReplacesOneEntry := by
  intro s g m hs
  constructor
  · intro hg
    refine ⟨_, execSetGrid_in hg m, rfl, fun j _ => ?_, fun k hk => memRead_memWrite_other hk _ s⟩
    rw [memRead_memWrite_same hs, segmentBits, lowBits_getLsbD]
  · intro hout
    exact execSetGrid_out (Nat.not_lt.2 hout) m

/-! ### READ_GRID and GET_BRIGHTNESS -/

theorem execReadGrid_in {s : State} {g : BitVec 8} (hg : g.toNat < s.cfg.grids) :
    execReadGrid g s = .next (respond (memRead s g.toNat) s) := by
  rw [execReadGrid, inRange, decide_eq_true hg, if_pos rfl]

theorem execReadGrid_out {s : State} {g : BitVec 8} (hg : ¬g.toNat < s.cfg.grids) :
    execReadGrid g s = .next (respond 0#64 s) := by
  rw [execReadGrid, inRange, decide_eq_false hg, if_neg Bool.false_ne_true]

/-- Settles O45: the response by the range of g, and its bound by that of every entry (R26). -/
theorem readGridResponds : Obligations.ReadGridResponds := fun _ g hinv =>
  ⟨fun hg => ⟨execReadGrid_in hg, Memory.read_lt hinv.storeBits g.toNat⟩,
    fun hout => execReadGrid_out (Nat.not_lt.2 hout)⟩

/-- Settles O46: zero extension keeps the number, which is the one fixed at construction (R31). -/
theorem getBrightnessResponds : Obligations.GetBrightnessResponds := by
  intro s hinv
  have hzext : (s.brightness.setWidth 64).toNat = s.brightness.toNat := BitVec.toNat_setWidth_of_le (by decide)
  exact ⟨_, rfl, hzext, hzext.trans hinv.brightnessKept⟩

/-! ### The font -/

/-- The lookup folds case (R165): an upper-case form is its own. -/
@[simp] theorem fontLookup_toUpper (f : FontTable) (c : Char) : fontLookup f c.toUpper = fontLookup f c := by
  rw [fontLookup, fontLookup, Char.toUpper_toUpper_eq_toUpper]

/-- The blank default: a character without a pattern has the all-zero one (R165). -/
theorem fontPattern_of_not_hasPattern {f : FontTable} {c : Char} (h : hasPattern f c = false) :
    fontPattern f c = 0#64 := by
  have hnone : fontLookup f c = none := Option.not_isSome_iff_eq_none.1 (Bool.eq_false_iff.1 h)
  rw [fontPattern, hnone, Option.getD_none]

/-- Settles O49: both functions read the table through `fontLookup` alone. -/
theorem fontFoldsCaseAndIsBlankElsewhere : Obligations.FontFoldsCaseAndIsBlankElsewhere := by
  intro f c
  refine ⟨?_, ?_, fontPattern_of_not_hasPattern⟩
  · rw [fontPattern, fontPattern, fontLookup_toUpper]
  · rw [hasPattern, hasPattern, fontLookup_toUpper]

/-! ### DISPLAY_STRING -/

/-- The character on grid i is the text's, or a space past its end (R166). -/
theorem charAt_eq (t : List Char) (i : Nat) : charAt t i = if h : i < t.length then t[i] else ' ' := by
  split
  · exact List.getD_eq_getElem t ' ' ‹_›
  · exact List.getD_eq_default t ' ' (Nat.le_of_not_lt ‹_›)

/-- SET_GRID of a grid given by its number, which the 8-bit index operand holds (R78, R162). -/
theorem exec_setGrid_ofNat {s : State} {k : Nat} (hk : k < s.cfg.grids) (h256 : s.cfg.grids ≤ 256) (m : Word64) :
    exec (.setGrid (BitVec.ofNat 8 k) m) s = .next (memWrite k (segmentBits s.cfg m) s) := by
  have hindex : (BitVec.ofNat 8 k).toNat = k := Nat.mod_eq_of_lt (Nat.lt_of_lt_of_le hk h256)
  rw [exec, execSetGrid_in (by rwa [hindex]), hindex]

/-- One SET_GRID for each of a list of grids, with f giving the masks: all complete, and the grids of the list read as their
masks' low S bits, the others as before. A grid listed twice gets one mask, so the list may repeat. -/
theorem execAll_setGrids {s : State} (hs : s.seg.wf) (h256 : s.cfg.grids ≤ 256) (f : Nat → Word64) {gs : List Nat}
    (hgs : ∀ k ∈ gs, k < s.cfg.grids) :
    ∃ t, execAll (gs.map fun k => .setGrid (BitVec.ofNat 8 k) (f k)) s = .next t ∧ t = { s with seg := t.seg } ∧
      ∀ i, memRead t i = if i ∈ gs then segmentBits s.cfg (f i) else memRead s i := by
  induction gs generalizing s with
  | nil => exact ⟨s, rfl, rfl, fun i => (if_neg List.not_mem_nil).symm⟩
  | cons k gs ih =>
    obtain ⟨hk, hgs⟩ := List.forall_mem_cons.1 hgs
    obtain ⟨t, ht, hframe, hread⟩ := ih (s := memWrite k (segmentBits s.cfg (f k)) s) (Memory.write_wf hs ..) h256 hgs
    refine ⟨t, (execAll_cons_of_next (exec_setGrid_ofNat hk h256 (f k)) _).trans ht, hframe, fun i => ?_⟩
    rw [hread, memWrite_cfg]
    by_cases hi : i = k
    · subst hi
      rw [memRead_memWrite_same hs, ite_self, if_pos List.mem_cons_self]
    · rw [memRead_memWrite_other hi]
      simp only [List.mem_cons, hi, false_or]

/-- Settles O48: the expansion is `execAll_setGrids` over all grids, G ≤ 16 of them, with the patterns as masks. -/
theorem displayStringFillsTheStore : Obligations.DisplayStringFillsTheStore := by
  intro s txt hinv
  have hlayout := validConfig_layout hinv.cfgValid
  obtain ⟨t, ht, hframe, hread⟩ := execAll_setGrids hinv.storeWf (by omega)
    (fun i => fontPattern s.cfg.font (charAt txt i)) (gs := List.range s.cfg.grids) fun _ => List.mem_range.1
  refine ⟨t, ht, hframe, fun i hi => ?_⟩
  rw [hread, if_pos (List.mem_range.2 hi), charAt_eq]

end Sys2Proof.Machine
end

section
/-! SUPPORT. How a command and a request of the caller end (R84, R144, R205). -/

namespace Sys2Proof.Machine

/-! ### Commands that complete -/

/-- A command other than TICK and TRANSFER completes: of the two outcomes, the fault is theirs alone (R144). -/
theorem exec_completes {i : Instr} (htick : ∀ now, i ≠ .tick now) (htransfer : ∀ w1 w2, i ≠ .transfer w1 w2)
    (s : State) : ∃ t, exec i s = .next t := by
  rcases exec_outcome i s with hnext | ⟨-, hf⟩
  · exact hnext
  · rcases exec_fault hf with ⟨w1, w2, rfl⟩ | ⟨now, rfl, -⟩
    · exact absurd rfl (htransfer w1 w2)
    · exact absurd rfl (htick now)

/-- Settles O19: the second clause is `exec_completes`; the others hold in each of the two outcomes of `exec_outcome`. -/
theorem everyCommandCompletes : Obligations.EveryCommandCompletes := by
  intro i s
  rcases exec_outcome i s with ⟨t, ht⟩ | ⟨habsent, hf⟩
  · refine ⟨fun _ => ⟨t, ht⟩, (exec_completes · · s), fun r hr => ?_, fun r hr => ?_⟩
    · cases ht.symm.trans hr
    · cases ht.symm.trans hr
  · refine ⟨fun hp => ?_, (exec_completes · · s), fun r hr => ?_, fun r hr => ?_⟩
    · exact absurd (hp.symm.trans habsent) Bool.noConfusion
    · exact ⟨(Host.Outcome.fault.inj (hf.symm.trans hr)).symm, habsent⟩
    · cases hf.symm.trans hr

/-! ### Requests of the caller -/

/-- A request that has words puts them behind those waiting (R58, R205). -/
theorem makeRequest_of_ok {r : Request} {s : State} {ws : List CommandWord} (h : transcribe s.cfg r = .ok ws) :
    makeRequest r s = .next { s with pending := s.pending ++ ws } := by
  rw [makeRequest, h, ← issue_foldl]

/-- A request that has none is refused for the reason given, and marks it (R38, R205). -/
theorem makeRequest_of_error {r : Request} {s : State} {e : Refusal} (h : transcribe s.cfg r = .error e) :
    makeRequest r s = .refused e ∧ requestMarked r s = markRefused e s := by
  have hrefused : makeRequest r s = .refused e := by rw [makeRequest, h]
  exact ⟨hrefused, by rw [requestMarked, hrefused]⟩

/-- DISPLAY_STRING has one command for each grid (R166). -/
@[simp] theorem displayString_length (c : Config) (txt : List Char) : (displayString c txt).length = c.grids := by
  rw [displayString, List.length_map, List.length_range]

/-- Settles O50: each kind of request by what it transcribes to. -/
theorem requestsAreIssuedOrRefused : Obligations.RequestsAreIssuedOrRefused := fun s =>
  ⟨fun _ => makeRequest_of_error rfl, fun _ => makeRequest_of_ok rfl, fun _ => makeRequest_of_ok rfl,
    displayString_length s.cfg⟩

end Sys2Proof.Machine
end

section
/-! SUPPORT. Reset and hazards (70_reset_and_hazards.md): what construction gives, that it meets the invariant (R230), and that
no mark stops the block (R243). -/

namespace Sys2Proof.Machine

/-! ### Construction -/

theorem construct_of_valid {c : Config} (hv : validConfig c = true) : construct c = .next (constructed c) := if_pos hv

theorem construct_of_not_valid {c : Config} (hv : ¬validConfig c = true) :
    construct c = .refused .invalidConfiguration := if_neg hv

/-- A configuration that construction gives a state for is valid, and the state is the one of R230's steps 2 and 3. -/
theorem construct_next {c : Config} {s : State} (h : construct c = .next s) :
    validConfig c = true ∧ s = constructed c := by
  by_cases hv : validConfig c = true
  · exact ⟨hv, Host.Outcome.next.inj (h.symm.trans (construct_of_valid hv))⟩
  · cases h.symm.trans (construct_of_not_valid hv)

/-! ### The registers after construction -/

/-- Where the TW-bit register can hold DWELL_DEFAULT, it does (R30). -/
theorem dwellAtConstruction_of_fits {c : Config} (h : dwellDefault < 2 ^ c.timerWidth) :
    dwellAtConstruction c = BitVec.ofNat 64 dwellDefault := if_pos h

/-- The dwell register is in its width, the free value of a narrow timer too (R30; log 4). -/
theorem dwellAtConstruction_lt (c : Config) : (dwellAtConstruction c).toNat < 2 ^ c.timerWidth := by
  by_cases h : dwellDefault < 2 ^ c.timerWidth
  · rw [dwellAtConstruction_of_fits h]
    exact h
  · rw [dwellAtConstruction, if_neg h]
    exact timerBits_lt c _

section Constructed

variable {c : Config} (hv : validConfig c = true)
include hv

/-- CURSOR_INIT < G ≤ 16 fits in the 4-bit cursor (R28). -/
theorem constructed_cursor_toNat : (constructed c).cursor.toNat = c.cursorInit := by
  obtain ⟨-, hG, -, -, -, -, -, -, hcursor, -⟩ := (validConfig_iff c).1 hv
  exact (BitVec.toNat_ofNat ..).trans (Nat.mod_eq_of_lt (by omega))

/-- LAST_TS_INIT < 2^TW fits in the 64 bits that carry the TW-bit register (R29). -/
theorem constructed_lastTs_toNat : (constructed c).lastTs.toNat = c.lastTsInit := by
  obtain ⟨-, -, -, -, -, -, -, hTW, -, hlast, -⟩ := (validConfig_iff c).1 hv
  have h64 : c.lastTsInit < 2 ^ 64 := hlast.trans_le (Nat.pow_le_pow_right (by omega) hTW)
  exact (BitVec.toNat_ofNat ..).trans (Nat.mod_eq_of_lt h64)

/-- BRIGHTNESS_INIT fits in the 8-bit brightness register (R31). -/
theorem constructed_brightness_toNat : (constructed c).brightness.toNat = c.brightnessInit := by
  obtain ⟨-, -, -, -, -, -, -, -, -, -, -, hbright⟩ := (validConfig_iff c).1 hv
  exact (BitVec.toNat_ofNat ..).trans (Nat.mod_eq_of_lt hbright)

/-- The invariant holds at construction: the store is empty and no frame has been sent (R230, R231). -/
theorem inv_constructed : Inv (constructed c) where
  cfgValid := hv
  storeWf := Memory.wf_nil
  storeIndex _ he := absurd he List.not_mem_nil
  storeBits _ he := absurd he List.not_mem_nil
  cursorIn := by
    obtain ⟨-, -, -, -, -, -, -, -, hcursor, -⟩ := (validConfig_iff c).1 hv
    rwa [constructed_cursor_toNat hv]
  lastTsFits := by
    obtain ⟨-, -, -, -, -, -, -, -, -, hlast, -⟩ := (validConfig_iff c).1 hv
    rwa [constructed_lastTs_toNat hv]
  dwellFits := dwellAtConstruction_lt c
  brightnessKept := constructed_brightness_toNat hv
  clkKept := rfl
  blankKept := rfl
  schedIdle := rfl
  loadLevel := rfl
  wholeFrames := ⟨[], rfl⟩

end Constructed

/-- Settles O11: `validConfig` is the conjunction of the ranges (`validConfig_iff`), so construction takes one branch or
the other; the registers that are narrowed hold their parameters by the lemmas above. -/
theorem constructionGivesTheResetState : Obligations.ConstructionGivesTheResetState := by
  intro c
  rw [← validConfig_iff]
  refine ⟨construct_of_not_valid, fun hv => ⟨constructed c, construct_of_valid hv, ?_⟩⟩
  have hdwell : 2000 < 2 ^ c.timerWidth → (constructed c).dwell.toNat = 2000 := fun h =>
    congrArg BitVec.toNat (dwellAtConstruction_of_fits h)
  exact ⟨rfl, Memory.read_nil, constructed_cursor_toNat hv, constructed_lastTs_toNat hv, hdwell,
    constructed_brightness_toNat hv, rfl, rfl, rfl, rfl, rfl, rfl, rfl, rfl, rfl⟩

/-- Settles O12: a state that was constructed is `constructed` of a valid configuration. -/
theorem constructionEstablishesTheInvariant : Obligations.ConstructionEstablishesTheInvariant := by
  intro c s h
  obtain ⟨hv, rfl⟩ := construct_next h
  exact inv_constructed hv

/-- The configuration of R8 is within R230's ranges: 7 + 21 outputs are fewer than the 40 of two chips. -/
theorem validConfig_specialised : validConfig Config.specialised = true := by decide

/-- `State.reset` writes out what construction gives with R8's configuration. -/
theorem constructed_specialised : constructed Config.specialised = State.reset := rfl

/-- Settles O13: the construction is that of a valid configuration, so O12 gives the invariant. -/
theorem resetStateMeetsTheInvariant : Obligations.ResetStateMeetsTheInvariant := by
  have h : construct Config.specialised = .next State.reset := by
    rw [construct_of_valid validConfig_specialised, constructed_specialised]
  exact ⟨h, constructionEstablishesTheInvariant _ _ h⟩

/-! ### No mark stops a step -/

/-- The state with other marks. -/
def withMarks (f : Option Fault) (r : Option Refusal) (s : State) : State := { s with faulted := f, refused := r }

@[simp] theorem withMarks_cfg (f : Option Fault) (r : Option Refusal) (s : State) : (withMarks f r s).cfg = s.cfg := rfl

/-- A command on a state with other marks ends the same way and keeps those marks (R38, R243). -/
theorem exec_withMarks (i : Instr) (f : Option Fault) (r : Option Refusal) (s : State) :
    exec i (withMarks f r s) = match exec i s with
      | .next t => .next (withMarks f r t)
      | .fault x => .fault x
      | .refused x => .refused x := by
  rw [show withMarks f r s = withPortAndMarks s.pending f r s from rfl, exec_withPortAndMarks]
  cases h : exec i s with
  | next t =>
    have hport : t.pending = s.pending := by rw [exec_next_writes h]
    rw [← hport]
    rfl
  | fault x => rfl
  | refused x => rfl

/-- A step from a state with other marks ends the same way and keeps those marks: neither the decoder nor a command
reads one (R38, R243). -/
theorem step_withMarks (f : Option Fault) (r : Option Refusal) (s : State) :
    step (withMarks f r s) = match step s with
      | .next t => .next (withMarks f r t)
      | .fault x => .fault x
      | .refused x => .refused x := by
  cases hp : s.pending with
  | nil => rw [(nothingHappensWithoutACommand s hp).1, (nothingHappensWithoutACommand (withMarks f r s) hp).1]
  | cons w rest =>
    rw [step_head hp, step_head (s := withMarks f r s) hp, withMarks_cfg]
    cases decode s.cfg.timerWidth w with
    | ok i => exact exec_withMarks i f r { s with pending := rest }
    | error e => rfl

/-! ### Every waiting word is taken -/

/-- A step takes the oldest waiting word, whatever becomes of it (R243). -/
theorem stepMarked_pending (s : State) : (stepMarked s).pending = s.pending.tail := by
  cases hp : s.pending with
  | nil => rw [(nothingHappensWithoutACommand s hp).2, hp, List.tail_nil]
  | cons w rest =>
    rw [stepMarked_head hp]
    cases decode s.cfg.timerWidth w with
    | ok i => exact execMarked_pending i { s with pending := rest }
    | error e => rfl

/-- `n` steps take the `n` oldest waiting words. -/
theorem stepsMarked_pending (n : Nat) (s : State) : (stepsMarked n s).pending = s.pending.drop n := by
  induction n generalizing s with
  | zero => rfl
  | succ n ih => rw [stepsMarked, ih, stepMarked_pending, List.drop_tail]

/-- Settles O53: `step_withMarks` in each of the three outcomes, and the port by `stepMarked_pending` and
`stepsMarked_pending`. -/
theorem noStateIsTerminal : Obligations.NoStateIsTerminal := by
  intro s f r
  have hstep := step_withMarks f r s
  refine ⟨fun t h => ?_, fun x h => ?_, fun x h => ?_, stepMarked_pending s, ?_⟩
  · rwa [h] at hstep
  · rwa [h] at hstep
  · rwa [h] at hstep
  · rw [stepsMarked_pending, List.drop_length]

end Sys2Proof.Machine
end

section
/-! SUPPORT. Words written out in the spec's test vectors (95_test_vectors.md, Part 2), read back through the encoder. -/

namespace Sys2Proof

/-- A word that a well-formed command encodes to decodes to that command (R75 to R78). -/
theorem decode_of_encode_eq {tw : Nat} {w : CommandWord} {i : Instr} (hwf : i.wf tw = true) (henc : encode i = w) :
    decode tw w = .ok i := by
  rw [← henc, decode_encode hwf]

/-- Settles O6: each command is well-formed at its timer width and encodes to the word written out, so
`decode_of_encode_eq` reads it back. The numbers 2000, 500 and 2^32 fit their timers; no other command has a bound. -/
theorem writtenOutWordsDecode : Obligations.WrittenOutWordsDecode := by
  refine ⟨?pack, ?tick, ?transfer, ?setDwell, ?setSegment, ?setGrid, ?readGrid, ?wideTick⟩
  case tick | setDwell | wideTick => exact decode_of_encode_eq (by decide) (by decide)
  case pack | transfer | setSegment | setGrid | readGrid => exact decode_of_encode_eq rfl (by decide)

end Sys2Proof
end
